-- ==== Sys2Proof/Word.lean ====
section
/-! DEFINITION. The widths of 10_state.md R20 and R23, and nothing else: every operation on them stands in
`Sys2Proof/Machine/`. -/

namespace Sys2Proof

/-- One byte of the sample memory's byte cells (see `Machine.Memory`). -/
abbrev Byte := BitVec 8

/-- A sample word, a counter, a timer or a duty: 16 bits (R20, R23, D5). -/
abbrev Word := BitVec 16

/-- An angle register: 12 bits, tenths of a degree, legal values 0..3599 (R20, R29). -/
abbrev Angle := BitVec 12

/-- The five hardware-protection latch bits, in the layout of R38: bit 0 `OV`, 1 `UV`, 2 `OT`, 3 `OC`, 4 `VDS`. -/
abbrev Latch := BitVec 5

end Sys2Proof
end

