-- ==== Sys2Proof/Config.lean ====
section
/-! DEFINITION. The implementation parameters of 00_scope.md section 4: the record `CFG` of R7 as plain data, and its one
function-valued field, `CFG.ATAN2` (R8), as a constant without a body. Field names are the spec's own. -/

namespace Sys2Proof

/-- One row of `CFG.VTAB` (R7, R191). -/
structure VRow where
  vmin : Nat
  half : Nat
  full : Nat
  minDuty : Nat
deriving DecidableEq, Repr

/-- The constant record `CFG` of R7, without `ATAN2`. The fields are mathematical integers (R14); their ranges are
part of the well-formedness of R9, `Cfg.wf`. DESIGN CHOICE (entry 14): numbers, not bit patterns. -/
structure Cfg where
  SIN_OFS : Int
  COS_OFS : Int
  SINCOS_MAX : Nat
  OCT_BASE : Vector Nat 8
  OCT_SPAN : Nat
  VS_UNDER_STOP : Nat
  VS_UNDER_RETURN : Nat
  VS_OVER_RETURN : Nat
  VS_OVER_STOP : Nat
  VS_DEB : Nat
  IGN_OFF_STOP : Nat
  IGN_OFF_RETURN : Nat
  IGN_DEB : Nat
  TEMP_LOW_STOP : Nat
  TEMP_LOW_RETURN : Nat
  TEMP_HIGH_RETURN : Nat
  TEMP_HIGH_STOP : Nat
  TEMP_DEB : Nat
  VDDA_FAULT : Nat
  VDDA_OK : Nat
  VDDA_DEB : Nat
  HWOC_RETURN : Nat
  HW_DEB : Nat
  OFF_HYST : Nat
  ON_HYST : Nat
  POLE_POL : Bool
  START_DUTY : Nat
  RAMP_STEP : Nat
  SOFTSTOP_ENTRY : Nat
  DUTY_FULL : Nat
  DECEL_WINDOW : Nat
  PAUSE_TICKS : Nat
  RESTORE_TICKS : Nat
  STALL_MASK_TICKS : Nat
  MOTION_WIN : Nat
  MOTION_STOP_MAX : Nat
  MOTION_LOW_MAX : Nat
  OBSTR_TRIP : Nat
  STALL_TRIP : Nat
  OPEN_I_MAX : Nat
  OPEN_TRIP : Nat
  OC_CEILING : Nat
  OC_TRIP : Nat
  SHORT_TRIP : Nat
  FAULT_EN : BitVec 3
  VTAB : List VRow
deriving DecidableEq, Repr

/-- `CFG.ATAN2` (R8, D10): the external arctangent, `ATAN2(y, x)`, i16 × i16 → i16 as two's complement patterns; "a
total, deterministic function of its two i16 operands and of nothing else; the machine assumes nothing more of it".
A FREE VALUE (entry 3): a constant with no body, so no proof can know a value of it. -/
opaque Config.atan2 : BitVec 16 → BitVec 16 → BitVec 16

end Sys2Proof
end

