-- ==== Sys2Proof/Machine/RefCfg.lean ====
section
/-! DEFINITION. The reference configuration `REFCFG`, last column of the table of R7, and the well-formedness of a
configuration, R9. -/

namespace Sys2Proof

/-- `REFCFG` of R7 (its `ATAN2_REF` apart: `CFG.ATAN2` is `Config.atan2`). -/
def refCfg : Cfg where
  SIN_OFS := 0
  COS_OFS := 0
  SINCOS_MAX := 32767
  OCT_BASE := #v[0, 450, 900, 1350, 1800, 2250, 2700, 3150]
  OCT_SPAN := 450
  VS_UNDER_STOP := 800
  VS_UNDER_RETURN := 900
  VS_OVER_RETURN := 1700
  VS_OVER_STOP := 1800
  VS_DEB := 1000
  IGN_OFF_STOP := 500
  IGN_OFF_RETURN := 600
  IGN_DEB := 500
  TEMP_LOW_STOP := 10
  TEMP_LOW_RETURN := 15
  TEMP_HIGH_RETURN := 185
  TEMP_HIGH_STOP := 200
  TEMP_DEB := 100
  VDDA_FAULT := 300
  VDDA_OK := 320
  VDDA_DEB := 500
  HWOC_RETURN := 1000
  HW_DEB := 100
  OFF_HYST := 30
  ON_HYST := 50
  POLE_POL := false
  START_DUTY := 200
  RAMP_STEP := 10
  SOFTSTOP_ENTRY := 400
  DUTY_FULL := 1000
  DECEL_WINDOW := 300
  PAUSE_TICKS := 100
  RESTORE_TICKS := 10
  STALL_MASK_TICKS := 1000
  MOTION_WIN := 100
  MOTION_STOP_MAX := 0
  MOTION_LOW_MAX := 2
  OBSTR_TRIP := 20000
  STALL_TRIP := 10000
  OPEN_I_MAX := 10
  OPEN_TRIP := 5000
  OC_CEILING := 1500
  OC_TRIP := 5000
  SHORT_TRIP := 1
  FAULT_EN := 0b111
  VTAB := [⟨800, 300, 600, 300⟩, ⟨1000, 400, 800, 250⟩, ⟨1200, 500, 1000, 200⟩, ⟨1400, 600, 1200, 150⟩]

/-- A u16 (R14). -/
def isU16 (n : Nat) : Bool := decide (n < 65536)

/-- A count 1..65535 (R7). -/
def isCount (n : Nat) : Bool := decide (1 ≤ n) && decide (n < 65536)

/-- A number of tenths of a degree, 0..3599 (R7). -/
def isTenths (n : Nat) : Bool := decide (n < 3600)

/-- An i16 (R14). -/
def isI16 (n : Int) : Bool := decide (-32768 ≤ n) && decide (n < 32768)

/-- The u16 fields of a row of `VTAB` (R7). -/
def VRow.inRange (r : VRow) : Bool := isU16 r.vmin && isU16 r.half && isU16 r.full && isU16 r.minDuty

/-- Strictly increasing `vmin` along `VTAB` (R9). -/
def vminRising : List VRow → Bool
  | [] => true
  | [_] => true
  | r :: r' :: rest => decide (r.vmin < r'.vmin) && vminRising (r' :: rest)

/-- The ranges of the table of R7, Sensor Fusion part, with the octant condition of R9. -/
def Cfg.wfSF (c : Cfg) : Bool :=
  isI16 c.SIN_OFS && isI16 c.COS_OFS && decide (1 ≤ c.SINCOS_MAX) && decide (c.SINCOS_MAX ≤ 32767) &&
  decide (c.OCT_SPAN ≤ 450) && c.OCT_BASE.toList.all (fun b => isTenths b && decide (b + c.OCT_SPAN ≤ 3600))

/-- The ranges of the table of R7 and the orderings of R9, Protection Monitor part. -/
def Cfg.wfPM (c : Cfg) : Bool :=
  isU16 c.VS_UNDER_STOP && isU16 c.VS_UNDER_RETURN && isU16 c.VS_OVER_RETURN && isU16 c.VS_OVER_STOP &&
  decide (c.VS_UNDER_STOP ≤ c.VS_UNDER_RETURN) && decide (c.VS_UNDER_RETURN ≤ c.VS_OVER_RETURN) &&
  decide (c.VS_OVER_RETURN ≤ c.VS_OVER_STOP) && isCount c.VS_DEB &&
  isU16 c.IGN_OFF_STOP && isU16 c.IGN_OFF_RETURN && decide (c.IGN_OFF_STOP ≤ c.IGN_OFF_RETURN) && isCount c.IGN_DEB &&
  isU16 c.TEMP_LOW_STOP && isU16 c.TEMP_LOW_RETURN && isU16 c.TEMP_HIGH_RETURN && isU16 c.TEMP_HIGH_STOP &&
  decide (c.TEMP_LOW_STOP ≤ c.TEMP_LOW_RETURN) && decide (c.TEMP_LOW_RETURN ≤ c.TEMP_HIGH_RETURN) &&
  decide (c.TEMP_HIGH_RETURN ≤ c.TEMP_HIGH_STOP) && isCount c.TEMP_DEB &&
  isU16 c.VDDA_FAULT && isU16 c.VDDA_OK && decide (c.VDDA_FAULT ≤ c.VDDA_OK) && isCount c.VDDA_DEB &&
  isU16 c.HWOC_RETURN && isCount c.HW_DEB

/-- The ranges of the table of R7 and the orderings of R9, Motor Controller part. -/
def Cfg.wfMC (c : Cfg) : Bool :=
  isTenths c.OFF_HYST && isTenths c.ON_HYST &&
  isU16 c.START_DUTY && isCount c.RAMP_STEP && isU16 c.SOFTSTOP_ENTRY && isCount c.DUTY_FULL &&
  decide (c.START_DUTY ≤ c.DUTY_FULL) && decide (c.SOFTSTOP_ENTRY ≤ c.DUTY_FULL) &&
  decide (1 ≤ c.DECEL_WINDOW) && isTenths c.DECEL_WINDOW && isCount c.PAUSE_TICKS && isCount c.RESTORE_TICKS &&
  isU16 c.STALL_MASK_TICKS && isCount c.MOTION_WIN && isTenths c.MOTION_STOP_MAX && isTenths c.MOTION_LOW_MAX &&
  decide (c.MOTION_STOP_MAX ≤ c.MOTION_LOW_MAX) && isCount c.OBSTR_TRIP && isCount c.STALL_TRIP &&
  isU16 c.OPEN_I_MAX && isCount c.OPEN_TRIP && isU16 c.OC_CEILING && isCount c.OC_TRIP && isCount c.SHORT_TRIP &&
  c.VTAB.all VRow.inRange && !c.VTAB.isEmpty && vminRising c.VTAB

/-- Well-formedness of a configuration (R9). The monotonicity wish for `half`, `full` and `minDuty` is no part of it: "no
rule depends on it". -/
def Cfg.wf (c : Cfg) : Bool := c.wfSF && c.wfPM && c.wfMC

end Sys2Proof
end

