-- ==== Sys2Proof/Syntax.lean ====
section
/-! DEFINITION. The channels (R22), the input ports (R12), and the instructions: one constructor of `Instr` per row of
`spec/opcode_table.json`, 23 commands (R96) and 5 events (R91). -/

namespace Sys2Proof

/-- The ten ADC channels in the numbering of R22. -/
inductive Channel where
  | vs | temp | cur1 | cur2 | vdda | ign | sinp | sinn | cosp | cosn
deriving DecidableEq, Repr

/-- The ten raw samples of one ADC conversion cycle, port `adc_raw[0..9]` (R12, R120). -/
structure Samples where
  vs : Word := 0
  temp : Word := 0
  cur1 : Word := 0
  cur2 : Word := 0
  vdda : Word := 0
  ign : Word := 0
  sinp : Word := 0
  sinn : Word := 0
  cosp : Word := 0
  cosn : Word := 0
deriving DecidableEq, Repr

/-- The commands of R96 and the events of R91. A command of format `A`, `M2` or `M3` carries its 16-bit operand field as
an unsigned pattern (R92); an event carries the data of its port (R91). -/
inductive Instr where
  | reqHstop
  | clrHstop
  | setTarget (angle : Word)
  | setCurpos (angle : Word)
  | getState
  | getStall
  | getFault
  | clrStall (scope : Word)
  | clrFault (scope : Word)
  | getTarget
  | getCurpos
  | setSofs (angle : Word)
  | getSofs
  | getAngle
  | getVsCond
  | getIgnCond
  | getTempCond
  | getMcuCond
  | getHwCond
  | getVs
  | getIgn
  | getTemp
  | getImot
  | evHwprot (m : Latch)
  | evAdc (raw : Samples)
  | evMtick
  | evAtick
  | evRst
deriving DecidableEq, Repr

/-- The input ports of R12 as they stand together: the event strobes `ev` (bit 0 `EV_HWPROT`, 1 `EV_ADC`, 2 `EV_MTICK`,
3 `EV_ATICK`, 4 `EV_RST`), their data, and the command port. -/
structure Inputs where
  ev : BitVec 5 := 0
  hwSet : Latch := 0
  adcRaw : Samples := {}
  cmdValid : Bool := false
  cmdWord : BitVec 24 := 0
deriving DecidableEq, Repr

/-- What can be asked of the block by one cycle of the ports: one of the five strobes or a command. -/
inductive Strobe where
  | rst | hwprot | adc | mtick | atick | cmd
deriving DecidableEq, Repr

/-- The two refusals of a command word (R260). -/
inductive CmdError where
  | badOp    -- the opcode is not assigned
  | badArg   -- the opcode is assigned, the operand is not legal for its format
deriving DecidableEq, Repr

/-- The four command formats of R90. -/
inductive Format where
  | n | a | m2 | m3
deriving DecidableEq, Repr

end Sys2Proof
end

