-- ==== Sys2Proof/Machine/State.lean ====
section
/-! DEFINITION. The state: the 44 registers of R20 grouped by sub-block, the sample memory of R23, and three fields of the
model's own (`cfg`, `inq`, `out`; entries 1, 2, 4). All plain data. -/

namespace Sys2Proof.Machine

/-- `MotorState` (R27), the eight legal values of the 3-bit register `MC.mstate`. -/
inductive MotorState where
  | init | stopped | accelerating | running | decelerating | paused | stalled | fault
deriving DecidableEq, Repr

/-- `PM.vsCond` (R39); code 3 is never produced, so the type has three values (U33, entry 8). -/
inductive VsCond where
  | normal | under | over
deriving DecidableEq, Repr

/-- `PM.ignCond` (R39). -/
inductive IgnCond where
  | normal | off
deriving DecidableEq, Repr

/-- `PM.tCond` (R39); three values, as `VsCond`. -/
inductive TCond where
  | normal | low | high
deriving DecidableEq, Repr

/-- `PM.mcuCond` (R39). -/
inductive McuCond where
  | ok | fault
deriving DecidableEq, Repr

/-- `PM.ocCond` (R39). -/
inductive OcCond where
  | normal | over
deriving DecidableEq, Repr

/-- `PM.vdsCond` (R39). -/
inductive VdsCond where
  | normal | short
deriving DecidableEq, Repr

/-- `MC.dir` (R31): forward is toward larger angles. -/
inductive Dir where
  | fwd | rev
deriving DecidableEq, Repr

/-- Sensor Fusion registers (R20 rows 0 and 1, R24). -/
structure SF where
  widx : BitVec 3 := 0
  sensorOffset : Angle := 0
deriving DecidableEq, Repr

/-- Protection Monitor registers (R20 rows 2 to 13, R39, R40). -/
structure PM where
  vsCond : VsCond := .normal
  vsCnt : Word := 0
  ignCond : IgnCond := .normal
  ignCnt : Word := 0
  tCond : TCond := .normal
  tCnt : Word := 0
  mcuCond : McuCond := .ok
  mcuCnt : Word := 0
  ocCond : OcCond := .normal
  ocCnt : Word := 0
  vdsCond : VdsCond := .normal
  vdsCnt : Word := 0
deriving DecidableEq, Repr

/-- Motor Controller registers (R20 rows 15 to 43, R26 to R37). -/
structure MC where
  mstate : MotorState := .init
  initStatus : Bool := false
  elapsed : Word := 0
  targetAngle : Angle := 0
  haveTarget : Bool := false
  currentAngle : Angle := 0
  hardStop : Bool := false
  moveReq : Bool := false
  posReached : Bool := false
  dir : Dir := .fwd
  duty : Word := 0
  outEn : Bool := false
  dutySaved : Word := 0
  restore : Bool := false
  restoreCnt : Word := 0
  enTimer : Word := 0
  winCnt : Word := 0
  refAngle : Angle := 0
  motionDelta : Angle := 0
  thrHalf : Word := 0
  thrFull : Word := 0
  minDuty : Word := 0
  obstrCnt : Word := 0
  stallCnt : Word := 0
  openCnt : Word := 0
  shortCnt : Word := 0
  ocCnt : Word := 0
  stallFlags : BitVec 2 := 0
  faultFlags : BitVec 3 := 0
deriving DecidableEq, Repr

/-- The sample-buffer space (R70, R72) as a list of (byte address, byte) cells in ONE canonical form (`Memory.wf`): word `a`
of the spec is bytes `2a` (high) and `2a + 1` (low). The spec's unit is the word and no rule sees a byte (R73): the
byte split is the model's (entry 5). A byte that is not listed reads as 0, the reset contents (R23). -/
abbrev Memory := List Host.Cell

/-- `rsp_status` (R93); code 3 is never produced (U32). -/
inductive Status where
  | ok | badOp | badArg
deriving DecidableEq, Repr

/-- The `Output` of R10: a response for a command, a re-arm pulse mask for `EV_ATICK`, nothing for the others. -/
inductive Output where
  | none
  | response (status : Status) (data : Word)
  | rearm (mask : Latch)
deriving DecidableEq, Repr

/-- The whole state. `sf`, `pm`, `hwpend`, `mc` are the 44 registers of R20, `mem` the 80 words of R23. The model's own
fields: `cfg`, the constant record CFG, which no step writes (entry 2); `inq`, what the outside world presents on the
input ports, oldest first (entry 1); `out`, the output of the step last taken (entry 4). -/
structure State where
  cfg : Cfg
  sf : SF := {}
  pm : PM := {}
  hwpend : Latch := 0
  mc : MC := {}
  mem : Memory := []
  inq : List Inputs := []
  out : Output := .none
deriving DecidableEq, Repr

/-- The state after reset (R43, R290): every register and every sample word 0, which is `Init`, Normal/Ok, all flags clear.
`CFG` "is not state": `REFCFG` stands in it (DESIGN CHOICE, entry 2); nothing is presented on the ports (entry 1). -/
def State.reset : State := { cfg := refCfg }

/-- No step of the block faults: "Nothing in the block halts, and nothing traps" (93_implementation_defined.md). The type
has no constructor (entry 12). -/
inductive Fault where
deriving DecidableEq, Repr

/-- Why a step gives no next state. -/
inductive Refusal where
  /-- Raised by `exec` for an instruction that has no meaning in the model yet; none is left. Safe. -/
  | notModelled (mnemonic : String)
  /-- Raised by `step` when `cfg` is not a configuration (R9: "give an ill-formed configuration no meaning (refuse it)",
  U35). Safe (entry 6). -/
  | illFormedConfig
deriving DecidableEq, Repr

end Sys2Proof.Machine
end

