-- ==== Sys2Proof/Machine/Flags.lean ====
section
/-! DEFINITION. Counters, differences and flag bits: the shared arithmetic of R14, R15, R33, R35 to R38, R182, R185. -/

namespace Sys2Proof.Machine

/-- `sat16(v)` (R14). -/
def sat16 (v : Nat) : Nat := min v 65535

/-- A number written to a 16-bit register (R252: every write of the rules fits; entry 17). -/
def toWord (v : Nat) : Word := BitVec.ofNat 16 v

/-- A number written to an angle register (R252; entry 17). -/
def toAngle (v : Nat) : Angle := BitVec.ofNat 12 v

/-- A saturating increment of a 16-bit timer (R28, R32). -/
def satInc (t : Word) : Word := toWord (sat16 (t.toNat + 1))

/-- `updown(cnt, c)` (R15): up to 65535 on a crossing sample, down to 0 on any other. -/
def updown (cnt : Word) (c : Bool) : Word := if c then toWord (sat16 (cnt.toNat + 1)) else toWord (cnt.toNat - 1)

/-- `adiff(a, b) = |a − b|`, with no wrap at 3600 (R14, R182). -/
def adiff (a b : Angle) : Nat := ((a.toNat : Int) - (b.toNat : Int)).natAbs

/-- `clamp(v, lo, hi)` (R14). -/
def clamp (v lo hi : Int) : Int := max lo (min v hi)

/-- One debounced detector of R35 (rules R194 to R198): while it is enabled its counter goes up and down with the
condition, and it trips on a sample that meets the condition with the count at or past the trip; while it is not, its
counter is 0. Gives the new counter and whether the flag is set. -/
def detect (enabled c : Bool) (trip : Nat) (cnt : Word) : Word × Bool :=
  if enabled then (updown cnt c, c && decide (trip ≤ (updown cnt c).toNat)) else (0, false)

/-- `STALL_MASK_TEMPORARY` (R36). -/
def stallTemporary : BitVec 2 := 0b01

/-- `STALL_MASK_PERMANENT` (R36). -/
def stallPermanent : BitVec 2 := 0b10

/-- `FAULT_MASK_OPEN_PHASE` (R37). -/
def faultOpenPhase : BitVec 3 := 0b001

/-- `FAULT_MASK_SHORT` (R37). -/
def faultShort : BitVec 3 := 0b010

/-- `FAULT_MASK_OVER_CURRENT` (R37). -/
def faultOverCurrent : BitVec 3 := 0b100

/-- `HWPEND` bit `OV` (R38). -/
def latchOV : Latch := 0b00001

/-- `HWPEND` bit `UV` (R38). -/
def latchUV : Latch := 0b00010

/-- `HWPEND` bit `OT` (R38). -/
def latchOT : Latch := 0b00100

/-- `HWPEND` bit `OC` (R38). -/
def latchOC : Latch := 0b01000

/-- `HWPEND` bit `VDS` (R38). -/
def latchVDS : Latch := 0b10000

/-- Whether a bit of a mask is set. -/
def hasBit {w : Nat} (m bit : BitVec w) : Bool := (m &&& bit) != 0

/-- A mask with a bit set when a condition holds. -/
def setIf {w : Nat} (m bit : BitVec w) (c : Bool) : BitVec w := if c then m ||| bit else m

/-- A latch bit to re-arm, when a condition holds. -/
def pulseIf (bit : Latch) (c : Bool) : Latch := if c then bit else 0

/-- `d := MC.targetAngle − MC.currentAngle`, a plain signed integer (R182). -/
def MC.travel (mc : MC) : Int := (mc.targetAngle.toNat : Int) - (mc.currentAngle.toNat : Int)

/-- `motionStopped` (R33, R183). -/
def MC.motionStopped (cfg : Cfg) (mc : MC) : Bool := decide (mc.motionDelta.toNat ≤ cfg.MOTION_STOP_MAX)

/-- `motionLow` (R33, R183). -/
def MC.motionLow (cfg : Cfg) (mc : MC) : Bool :=
  decide (cfg.MOTION_STOP_MAX < mc.motionDelta.toNat) && decide (mc.motionDelta.toNat ≤ cfg.MOTION_LOW_MAX)

/-- `reversal` (R185): the sign of the remaining travel disagrees with the direction being driven. -/
def MC.reversal (d : Int) (mc : MC) : Bool :=
  (decide (0 < d) && decide (mc.dir = .rev)) || (decide (d < 0) && decide (mc.dir = .fwd))

/-- `active` (R193): the stall detectors are masked until the output has been enabled long enough. -/
def MC.stallActive (cfg : Cfg) (mc : MC) : Bool := mc.outEn && decide (cfg.STALL_MASK_TICKS ≤ mc.enTimer.toNat)

end Sys2Proof.Machine
end

