-- ==== Sys2Proof/Machine/Ops.lean ====
section
/-! DEFINITION. The named operations over memory, registers, outputs and the motor state: `MemRead`, `MemWrite` (R72), the
responses (R93), the refusal of a command (R260), `enter` (R186, R263, R264), the level outputs (R211), and the
register file view `x[i]` (R15, R20). -/

namespace Sys2Proof.Machine

/-! ### Sample memory (R70, R72, R256) -/

/-- One byte; an unlisted one is 0 (R23). -/
def Memory.readByte : Memory → Nat → Byte
  | [], _ => 0#8
  | (k, b) :: m, a => if k = a then b else Memory.readByte m a

/-- One byte replaced, keeping the canonical form: rising addresses, no listed 0. -/
def Memory.writeByte : Memory → Nat → Byte → Memory
  | [], a, b => if b = 0#8 then [] else [(a, b)]
  | (k, v) :: m, a, b =>
    if k < a then (k, v) :: Memory.writeByte m a b
    else if k = a then (if b = 0#8 then m else (a, b) :: m)
    else (if b = 0#8 then (k, v) :: m else (a, b) :: (k, v) :: m)

/-- The canonical form from an address on: strictly rising, inside the 80 words, no listed 0. -/
def Memory.wfFrom : Nat → Memory → Bool
  | _, [] => true
  | lo, (k, b) :: m => decide (lo ≤ k) && decide (k < 160) && (b != 0#8) && Memory.wfFrom (k + 1) m

/-- The canonical form of the sample memory: equal contents are equal lists. -/
def Memory.wf (m : Memory) : Bool := Memory.wfFrom 0 m

/-- `MemRead(a, 1)`: the word at word address `a` (R72). An address outside 0..79 cannot be written down (entry 18). -/
def Memory.readWord (m : Memory) (a : Fin 80) : Word :=
  (m.readByte (2 * a.val) ++ m.readByte (2 * a.val + 1) : BitVec (8 + 8))

/-- `MemWrite(a, 1, v)`: "replaces the word at `a` by `v[15:0]`" (R72). -/
def Memory.writeWord (m : Memory) (a : Fin 80) (v : Word) : Memory :=
  (m.writeByte (2 * a.val) (v.extractLsb' 8 8)).writeByte (2 * a.val + 1) (v.extractLsb' 0 8)

/-- The channel number `c` of R22. -/
def chanNum (c : Channel) : Fin 10 :=
  match c with
  | .vs => 0
  | .temp => 1
  | .cur1 => 2
  | .cur2 => 3
  | .vdda => 4
  | .ign => 5
  | .sinp => 6
  | .sinn => 7
  | .cosp => 8
  | .cosn => 9

/-- The ten channels in order (R22). -/
def allChannels : List Channel := [.vs, .temp, .cur1, .cur2, .vdda, .ign, .sinp, .sinn, .cosp, .cosn]

/-- The eight slots of a window in order (R23). -/
def allSlots : List (BitVec 3) := [0, 1, 2, 3, 4, 5, 6, 7]

/-- The word address `8·c + i` of `buf[c][i]` (R23, R72). -/
def wordAddr (c : Channel) (i : BitVec 3) : Fin 80 :=
  ⟨8 * (chanNum c).val + i.toNat, by have h := (chanNum c).isLt; have h' := i.isLt; omega⟩

/-- The sample a conversion cycle delivers for a channel (R12, R120). -/
def sampleOf (raw : Samples) (c : Channel) : Word :=
  match c with
  | .vs => raw.vs
  | .temp => raw.temp
  | .cur1 => raw.cur1
  | .cur2 => raw.cur2
  | .vdda => raw.vdda
  | .ign => raw.ign
  | .sinp => raw.sinp
  | .sinn => raw.sinn
  | .cosp => raw.cosp
  | .cosn => raw.cosn

/-- `for c in 0..9: MemWrite(8*c + widx, 1, raw[c])` (R120). -/
def Memory.writeSamples (m : Memory) (widx : BitVec 3) (raw : Samples) : Memory :=
  allChannels.foldl (fun m c => m.writeWord (wordAddr c widx) (sampleOf raw c)) m

/-- `MemRead(8·c, 8)`: the eight words of a channel's window (R121, R256). -/
def Memory.window (m : Memory) (c : Channel) : List Word := allSlots.map (fun i => m.readWord (wordAddr c i))

/-! ### Outputs (R10, R12, R93) -/

/-- `rsp <- (OK, data)` (R93). -/
def State.respond (data : Word) (s : State) : State := { s with out := .response .ok data }

/-- TAKING AN EXCEPTION (R260, R15): a refused command reports its status with data 0 and leaves the whole state
unchanged; there is no handler, no saved register and no vector. -/
def State.raise (e : CmdError) (s : State) : State :=
  match e with
  | .badOp => { s with out := .response .badOp 0 }
  | .badArg => { s with out := .response .badArg 0 }

/-- The code of `rsp_status` (R93). -/
def statusCode (st : Status) : BitVec 2 :=
  match st with
  | .ok => 0
  | .badOp => 1
  | .badArg => 2

/-- Port `rsp_status`, "valid in the step that takes the command" (R12). -/
def State.rspStatus (s : State) : Option (BitVec 2) :=
  match s.out with
  | .response st _ => some (statusCode st)
  | .rearm _ => none
  | .none => none

/-- Port `rsp_data`, "valid in the step that takes the command" (R12). -/
def State.rspData (s : State) : Option Word :=
  match s.out with
  | .response _ d => some d
  | .rearm _ => none
  | .none => none

/-- Port `rearm`: a one-step pulse per latch re-armed (R12), 0 after any step but an `EV_ATICK`. -/
def State.rearmPort (s : State) : Latch :=
  match s.out with
  | .rearm m => m
  | .response _ _ => 0
  | .none => 0

/-- The byte-serial order of R73 for a response: status byte, data high byte, data low byte. DESIGN CHOICE (entry 20): the
upper six bits of the status byte, above the 2-bit `rsp_status` of R93, are 0; the spec does not say. -/
def responseBytes (st : Status) (d : Word) : List Byte :=
  [(statusCode st).setWidth 8, d.extractLsb' 8 8, d.extractLsb' 0 8]

/-- Port `out_en` (R12, R211). -/
def State.outEn (s : State) : Bool := s.mc.outEn

/-- Port `out_dir`, `MC.dir xor CFG.POLE_POL` (R12, R31, R211). -/
def State.outDir (s : State) : Bool := (s.mc.dir == .rev) != s.cfg.POLE_POL

/-- Port `out_duty` (R12, R211); meaningful only while `out_en` is 1 (R305). -/
def State.outDuty (s : State) : Word := s.mc.duty

/-! ### The motor state (R186): entry to Stalled and Fault (R263) and the return from them (R264) -/

/-- `enter(S)`, the only way `MC.mstate` changes (R186). With `S` Stalled or Fault it is the block's entry to a detected
condition (R201, R263), with `S` Stopped its return (R208, R209, R264). `d` is the remaining travel of the tick
(R182), read for the direction only (R185). -/
def MC.enter (cfg : Cfg) (d : Int) (target : MotorState) (mc : MC) : MC :=
  let mc := { mc with mstate := target, elapsed := 0, restore := false, restoreCnt := 0 }
  match target with
  | .init => mc
  | .stopped => { mc with outEn := false, duty := 0 }
  | .paused => { mc with outEn := false }
  | .stalled => { mc with outEn := false }
  | .fault => { mc with outEn := false }
  | .accelerating =>
    { mc with dir := if 0 < d then .fwd else .rev, duty := toWord cfg.START_DUTY, outEn := true, enTimer := 0 }
  | .running => { mc with duty := toWord cfg.DUTY_FULL }
  | .decelerating => { mc with dutySaved := mc.duty }

/-! ### Codes of the enumerations (R20, R27, R39, D26) -/

/-- Codes of `MotorState` (R27). -/
def mstateCode (m : MotorState) : BitVec 3 :=
  match m with
  | .init => 0
  | .stopped => 1
  | .accelerating => 2
  | .running => 3
  | .decelerating => 4
  | .paused => 5
  | .stalled => 6
  | .fault => 7

/-- Codes of `PM.vsCond` (R20, R160). -/
def vsCode (c : VsCond) : BitVec 2 :=
  match c with
  | .normal => 0
  | .under => 1
  | .over => 2

/-- Codes of `PM.ignCond` (R20, R161). -/
def ignCode (c : IgnCond) : BitVec 1 :=
  match c with
  | .normal => 0
  | .off => 1

/-- Codes of `PM.tCond` (R20, R162). -/
def tCode (c : TCond) : BitVec 2 :=
  match c with
  | .normal => 0
  | .low => 1
  | .high => 2

/-- Codes of `PM.mcuCond` (R20, R163). -/
def mcuCode (c : McuCond) : BitVec 1 :=
  match c with
  | .ok => 0
  | .fault => 1

/-- Codes of `PM.ocCond` (R20, R164). -/
def ocCode (c : OcCond) : BitVec 1 :=
  match c with
  | .normal => 0
  | .over => 1

/-- Codes of `PM.vdsCond` (R20, R164). -/
def vdsCode (c : VdsCond) : BitVec 1 :=
  match c with
  | .normal => 0
  | .short => 1

/-- Codes of `MC.dir` (R31). -/
def dirCode (d : Dir) : BitVec 1 :=
  match d with
  | .fwd => 0
  | .rev => 1

/-! ### The registers by number (R15, R20) -/

/-- `x[i]`: the register numbered `i` in the table of R20, as a number; 0 where the table has no row. -/
def State.x (s : State) (i : Nat) : Nat :=
  match i with
  | 0 => s.sf.widx.toNat
  | 1 => s.sf.sensorOffset.toNat
  | 2 => (vsCode s.pm.vsCond).toNat
  | 3 => s.pm.vsCnt.toNat
  | 4 => (ignCode s.pm.ignCond).toNat
  | 5 => s.pm.ignCnt.toNat
  | 6 => (tCode s.pm.tCond).toNat
  | 7 => s.pm.tCnt.toNat
  | 8 => (mcuCode s.pm.mcuCond).toNat
  | 9 => s.pm.mcuCnt.toNat
  | 10 => (ocCode s.pm.ocCond).toNat
  | 11 => s.pm.ocCnt.toNat
  | 12 => (vdsCode s.pm.vdsCond).toNat
  | 13 => s.pm.vdsCnt.toNat
  | 14 => s.hwpend.toNat
  | 15 => (mstateCode s.mc.mstate).toNat
  | 16 => s.mc.initStatus.toNat
  | 17 => s.mc.elapsed.toNat
  | 18 => s.mc.targetAngle.toNat
  | 19 => s.mc.haveTarget.toNat
  | 20 => s.mc.currentAngle.toNat
  | 21 => s.mc.hardStop.toNat
  | 22 => s.mc.moveReq.toNat
  | 23 => s.mc.posReached.toNat
  | 24 => (dirCode s.mc.dir).toNat
  | 25 => s.mc.duty.toNat
  | 26 => s.mc.outEn.toNat
  | 27 => s.mc.dutySaved.toNat
  | 28 => s.mc.restore.toNat
  | 29 => s.mc.restoreCnt.toNat
  | 30 => s.mc.enTimer.toNat
  | 31 => s.mc.winCnt.toNat
  | 32 => s.mc.refAngle.toNat
  | 33 => s.mc.motionDelta.toNat
  | 34 => s.mc.thrHalf.toNat
  | 35 => s.mc.thrFull.toNat
  | 36 => s.mc.minDuty.toNat
  | 37 => s.mc.obstrCnt.toNat
  | 38 => s.mc.stallCnt.toNat
  | 39 => s.mc.openCnt.toNat
  | 40 => s.mc.shortCnt.toNat
  | 41 => s.mc.ocCnt.toNat
  | 42 => s.mc.stallFlags.toNat
  | 43 => s.mc.faultFlags.toNat
  | _ => 0

/-- The Width column of R20. -/
def regWidth (i : Nat) : Nat :=
  ([3, 12, 2, 16, 1, 16, 2, 16, 1, 16, 1, 16, 1, 16, 5, 3, 1, 16, 12, 1, 12, 1, 1, 1, 1, 16, 1, 16, 1, 16, 16, 16, 12,
    12, 16, 16, 16, 16, 16, 16, 16, 16, 2, 3] : List Nat).getD i 0

end Sys2Proof.Machine
end

