-- ==== Sys2Proof/WellFormed.lean ====
section
/-! DEFINITION. Which instructions are well formed: the operand ranges of R90. -/

namespace Sys2Proof

/-- The legal operands of a format (R90): `N` only 0, `A` 0..3599, `M2` 0..3, `M3` 0..7. -/
def Format.legal (f : Format) (operand : Word) : Bool :=
  match f with
  | .n => operand.toNat == 0
  | .a => decide (operand.toNat < 3600)
  | .m2 => decide (operand.toNat ≤ 3)
  | .m3 => decide (operand.toNat ≤ 7)

/-- An instruction whose operand is legal for its format (R90, R260). Events carry no illegal data (R260: "No event
raises an exception"). -/
def Instr.wf (i : Instr) : Bool :=
  match i with
  | .setTarget a => Format.a.legal a
  | .setCurpos a => Format.a.legal a
  | .setSofs a => Format.a.legal a
  | .clrStall m => Format.m2.legal m
  | .clrFault m => Format.m3.legal m
  | .reqHstop | .clrHstop | .getState | .getStall | .getFault | .getTarget | .getCurpos | .getSofs | .getAngle
  | .getVsCond | .getIgnCond | .getTempCond | .getMcuCond | .getHwCond | .getVs | .getIgn | .getTemp | .getImot
  | .evHwprot _ | .evAdc _ | .evMtick | .evAtick | .evRst => true

end Sys2Proof
end

