-- ==== Sys2Proof/Machine/Operands.lean ====
section
/-! DEFINITION. What the rules read: the operand check of a command (R90, R95), the derived readings (R121, R122), the
voltage table (R191) and the angle pipeline (R123 to R127). -/

namespace Sys2Proof.Machine

/-- The operand check that a command's own rule makes (`if angle ≥ 3600: raise BADARG`, `if scope > 3: …`): the command
runs on a legal operand and raises `BADARG` on any other (R130, R242, R243, R247, R248). -/
def withOperand (f : Format) (operand : Word) (s run : State) : Host.Outcome State Fault Refusal :=
  if f.legal operand then .next run else .next (s.raise .badArg)

/-! ### Readings (R121, R122) -/

/-- `avg[c]`: the sum of the window divided by 8, floor (R121). -/
def avg (m : Memory) (c : Channel) : Nat := ((m.window c).map BitVec.toNat).sum / 8

/-- `last[c]`: the sample of the most recent `EV_ADC` (R121). -/
def last (m : Memory) (widx : BitVec 3) (c : Channel) : Nat := (m.readWord (wordAddr c (widx - 1))).toNat

/-- `iavg`, the filtered motor current (R122). -/
def iavg (m : Memory) : Nat := max (avg m .cur1) (avg m .cur2)

/-- `iinst`, the instantaneous motor current (R122). -/
def iinst (m : Memory) (widx : BitVec 3) : Nat := max (last m widx .cur1) (last m widx .cur2)

/-! ### The voltage-indexed table (R191) -/

/-- The rest of the search: a later row replaces the best one when the reading reaches its `vmin` and it is not below the
best one's. -/
def vlookupFrom (best : VRow) (rows : List VRow) (v : Nat) : VRow :=
  match rows with
  | [] => best
  | r :: rest => if r.vmin ≤ v ∧ best.vmin ≤ r.vmin then vlookupFrom r rest v else vlookupFrom best rest v

/-- `VLOOKUP(v)`: the row with the largest `vmin ≤ v`, the first row if there is none (R191). An empty table is no
configuration (R9); its row of zeros is never used (entry 14). -/
def vlookup (rows : List VRow) (v : Nat) : VRow :=
  match rows with
  | [] => ⟨0, 0, 0, 0⟩
  | r :: rest => vlookupFrom r rest v

/-! ### The angle pipeline (R123 to R127) -/

/-- One component of R123: the difference of two averages, less the offset, clamped to ±`SINCOS_MAX`. -/
def component (pos neg : Nat) (ofs : Int) (bound : Nat) : Int :=
  clamp ((pos : Int) - (neg : Int) - ofs) (-(bound : Int)) (bound : Int)

/-- The octant remap of R125 on the 16-bit pattern of `frac` read as unsigned. -/
def remap (cfg : Cfg) (frac : BitVec 16) : Nat :=
  let u := frac.toNat
  let k := u / 8192
  let r := u % 8192
  cfg.OCT_BASE.toList.getD k 0 + (r * cfg.OCT_SPAN) / 8192

/-- `ANGLE` of R127 for a given arctangent: R123, R124 (first argument the cosine, second the sine), R125, R126. -/
def angleWith (atan2 : BitVec 16 → BitVec 16 → BitVec 16) (cfg : Cfg) (m : Memory) (offset : Angle) : Nat :=
  let sine := component (avg m .sinp) (avg m .sinn) cfg.SIN_OFS cfg.SINCOS_MAX
  let cosine := component (avg m .cosp) (avg m .cosn) cfg.COS_OFS cfg.SINCOS_MAX
  let frac := atan2 (BitVec.ofInt 16 cosine) (BitVec.ofInt 16 sine)
  (remap cfg frac + offset.toNat) % 3600

/-- `ANGLE(CFG, buffers, SF.sensorOffset)` (R127), with the arctangent `CFG.ATAN2` of the configuration (R8, entry 3). -/
def State.angle (s : State) : Nat := angleWith Config.atan2 s.cfg s.mem s.sf.sensorOffset

end Sys2Proof.Machine
end

