-- ==== Sys2Proof/Machine/MotorCommands.lean ====
section
/-! DEFINITION. The eleven commands of the Motor Controller (43_motor_commands.md). "A command writes request bits, angles or
flags, and the next `EV_MTICK` acts on them." -/

namespace Sys2Proof.Machine

/-- `REQ_HSTOP` (R240). -/
def execReqHstop (s : State) : Host.Outcome State Fault Refusal :=
  .next (State.respond 0 { s with mc := { s.mc with hardStop := true } })

/-- `CLR_HSTOP` (R241). -/
def execClrHstop (s : State) : Host.Outcome State Fault Refusal :=
  .next (State.respond 0 { s with mc := { s.mc with hardStop := false } })

/-- Whether `SET_TARGET` is a no-op (R242): within `ON_HYST` of the last committed target. -/
def MC.targetHeld (cfg : Cfg) (angle : Word) (mc : MC) : Bool :=
  mc.haveTarget && decide (adiff (toAngle angle.toNat) mc.targetAngle ≤ cfg.ON_HYST)

/-- The commit of `SET_TARGET` (R242). -/
def MC.commitTarget (angle : Word) (mc : MC) : MC :=
  { mc with targetAngle := toAngle angle.toNat, haveTarget := true, moveReq := true, posReached := false }

/-- `SET_TARGET angle` (R242): answers 1 when it commits, 0 when it is a no-op. -/
def execSetTarget (angle : Word) (s : State) : Host.Outcome State Fault Refusal :=
  withOperand .a angle s
    (if s.mc.targetHeld s.cfg angle then s.respond 0 else State.respond 1 { s with mc := s.mc.commitTarget angle })

/-- `SET_CURPOS angle` (R243). -/
def execSetCurpos (angle : Word) (s : State) : Host.Outcome State Fault Refusal :=
  withOperand .a angle s (State.respond 0 { s with mc := { s.mc with currentAngle := toAngle angle.toNat } })

/-- `GET_STATE` (R244). -/
def execGetState (s : State) : Host.Outcome State Fault Refusal :=
  .next (s.respond ((mstateCode s.mc.mstate).setWidth 16))

/-- `GET_STALL` (R245). -/
def execGetStall (s : State) : Host.Outcome State Fault Refusal :=
  .next (s.respond (s.mc.stallFlags.setWidth 16))

/-- `GET_FAULT` (R246). -/
def execGetFault (s : State) : Host.Outcome State Fault Refusal :=
  .next (s.respond (s.mc.faultFlags.setWidth 16))

/-- `CLR_STALL scope` (R247): answers the flags after clearing. -/
def execClrStall (scope : Word) (s : State) : Host.Outcome State Fault Refusal :=
  let flags := s.mc.stallFlags &&& ~~~(scope.setWidth 2)
  withOperand .m2 scope s (State.respond (flags.setWidth 16) { s with mc := { s.mc with stallFlags := flags } })

/-- `CLR_FAULT scope` (R248): answers the flags after clearing. -/
def execClrFault (scope : Word) (s : State) : Host.Outcome State Fault Refusal :=
  let flags := s.mc.faultFlags &&& ~~~(scope.setWidth 3)
  withOperand .m3 scope s (State.respond (flags.setWidth 16) { s with mc := { s.mc with faultFlags := flags } })

/-- `GET_TARGET` (R249). -/
def execGetTarget (s : State) : Host.Outcome State Fault Refusal :=
  .next (s.respond (s.mc.targetAngle.setWidth 16))

/-- `GET_CURPOS` (R250). -/
def execGetCurpos (s : State) : Host.Outcome State Fault Refusal :=
  .next (s.respond (s.mc.currentAngle.setWidth 16))

end Sys2Proof.Machine
end

