-- ==== Sys2Proof/Machine/MotorTick.lean ====
section
/-! DEFINITION. The motor tick `EV_MTICK` (42_motor_tick.md): the motion observer, the table lookup, the position test, the
detectors, the state machine and its timers. Every sub-step writes registers of `MC` only (R44). -/

namespace Sys2Proof.Machine

/-- `OBSERVE()` (R183): the distance moved over windows of `MOTION_WIN` ticks. -/
def MC.observe (cfg : Cfg) (mc : MC) : MC :=
  if cfg.MOTION_WIN ≤ mc.winCnt.toNat + 1 then
    { mc with motionDelta := toAngle (adiff mc.currentAngle mc.refAngle), refAngle := mc.currentAngle, winCnt := 0 }
  else { mc with winCnt := toWord (mc.winCnt.toNat + 1) }

/-- `LOOKUP()` (R190): while the output is disabled the thresholds follow the supply reading. -/
def MC.lookup (cfg : Cfg) (supply : Nat) (mc : MC) : MC :=
  if mc.outEn then mc
  else
    let r := vlookup cfg.VTAB supply
    { mc with thrHalf := toWord r.half, thrFull := toWord r.full, minDuty := toWord r.minDuty }

/-- `REACHED(dist)` (R184): the position-reached test, in every state but `Init`. -/
def MC.reached (cfg : Cfg) (dist : Nat) (mc : MC) : MC :=
  if dist ≤ cfg.OFF_HYST then { mc with outEn := false, posReached := true, moveReq := false } else mc

/-- The obstruction detector (R194): temporary stall. -/
def MC.obstruction (cfg : Cfg) (current : Nat) (mc : MC) : MC :=
  let r := detect (mc.stallActive cfg) (decide (mc.thrHalf.toNat ≤ current) && mc.motionLow cfg) cfg.OBSTR_TRIP
    mc.obstrCnt
  { mc with obstrCnt := r.1, stallFlags := setIf mc.stallFlags stallTemporary r.2 }

/-- The stall detector (R195): permanent stall. -/
def MC.stall (cfg : Cfg) (current : Nat) (mc : MC) : MC :=
  let r := detect (mc.stallActive cfg) (decide (mc.thrFull.toNat ≤ current) && mc.motionStopped cfg) cfg.STALL_TRIP
    mc.stallCnt
  { mc with stallCnt := r.1, stallFlags := setIf mc.stallFlags stallPermanent r.2 }

/-- `STALLDET()` (R193): the two independent counters. -/
def MC.stallDet (cfg : Cfg) (current : Nat) (mc : MC) : MC := (mc.obstruction cfg current).stall cfg current

/-- The open-phase detector (R196). -/
def MC.openPhase (cfg : Cfg) (current : Nat) (mc : MC) : MC :=
  let r := detect (hasBit cfg.FAULT_EN faultOpenPhase && mc.outEn) (decide (current ≤ cfg.OPEN_I_MAX)) cfg.OPEN_TRIP
    mc.openCnt
  { mc with openCnt := r.1, faultFlags := setIf mc.faultFlags faultOpenPhase r.2 }

/-- The short detector (R197): the hardware-latched flag, in every state, enabled or not. -/
def MC.short (cfg : Cfg) (hw : Latch) (mc : MC) : MC :=
  let r := detect (hasBit cfg.FAULT_EN faultShort) (hasBit hw latchVDS) cfg.SHORT_TRIP mc.shortCnt
  { mc with shortCnt := r.1, faultFlags := setIf mc.faultFlags faultShort r.2 }

/-- The over-current detector (R198): the instantaneous current, ceiling included. -/
def MC.overCurrent (cfg : Cfg) (instant : Nat) (mc : MC) : MC :=
  let r := detect (hasBit cfg.FAULT_EN faultOverCurrent && mc.outEn) (decide (cfg.OC_CEILING ≤ instant)) cfg.OC_TRIP
    mc.ocCnt
  { mc with ocCnt := r.1, faultFlags := setIf mc.faultFlags faultOverCurrent r.2 }

/-- `FAULTDET()` (R196, R197, R198). -/
def MC.faultDet (cfg : Cfg) (current instant : Nat) (hw : Latch) (mc : MC) : MC :=
  ((mc.openPhase cfg current).short cfg hw).overCurrent cfg instant

/-- A transition of the state machine: the state entered is also the answer (R200). -/
def MC.goTo (cfg : Cfg) (d : Int) (target : MotorState) (mc : MC) : MC × Option MotorState :=
  (mc.enter cfg d target, some target)

/-- The exit of Stopped (R202). -/
def MC.smStopped (cfg : Cfg) (d : Int) (mc : MC) : MC × Option MotorState :=
  if mc.moveReq = true ∧ mc.hardStop = false then mc.goTo cfg d .accelerating else (mc, none)

/-- The exits of Accelerating (R203). -/
def MC.smAccelerating (cfg : Cfg) (d : Int) (dist : Nat) (mc : MC) : MC × Option MotorState :=
  if mc.hardStop = true then mc.goTo cfg d .stopped
  else if cfg.SOFTSTOP_ENTRY ≤ mc.duty.toNat ∧ dist ≤ cfg.DECEL_WINDOW then mc.goTo cfg d .decelerating
  else if cfg.DUTY_FULL ≤ mc.duty.toNat then mc.goTo cfg d .running
  else (mc, none)

/-- The exits of Running (R204). -/
def MC.smRunning (cfg : Cfg) (d : Int) (dist : Nat) (mc : MC) : MC × Option MotorState :=
  if mc.hardStop = true ∨ mc.posReached = true then mc.goTo cfg d .stopped
  else if mc.reversal d = true then mc.goTo cfg d .paused
  else if dist ≤ cfg.DECEL_WINDOW then mc.goTo cfg d .decelerating
  else (mc, none)

/-- The soft-stop duty (R205): proportional to the remaining distance, never rising, floored at `MC.minDuty`. -/
def softStopDuty (cfg : Cfg) (dist : Nat) (mc : MC) : Nat :=
  max mc.minDuty.toNat (min mc.duty.toNat (cfg.DUTY_FULL * dist / cfg.DECEL_WINDOW))

/-- The exits of Decelerating, with the restore phase of R206 (R205). -/
def MC.smDecelerating (cfg : Cfg) (d : Int) (dist : Nat) (mc : MC) : MC × Option MotorState :=
  if mc.hardStop = true then mc.goTo cfg d .stopped
  else if mc.restore = true then
    if cfg.RESTORE_TICKS ≤ mc.restoreCnt.toNat + 1 then mc.goTo cfg d .stopped
    else ({ mc with restoreCnt := toWord (mc.restoreCnt.toNat + 1) }, none)
  else if mc.motionStopped cfg = true then ({ mc with restore := true, restoreCnt := 0, duty := mc.dutySaved }, none)
  else if mc.reversal d = true then mc.goTo cfg d .paused
  else ({ mc with duty := toWord (softStopDuty cfg dist mc) }, none)

/-- The exit of Paused (R207). -/
def MC.smPaused (cfg : Cfg) (d : Int) (mc : MC) : MC × Option MotorState :=
  if cfg.PAUSE_TICKS ≤ mc.elapsed.toNat + 1 then mc.goTo cfg d .stopped else (mc, none)

/-- The exit of Stalled (R208). -/
def MC.smStalled (cfg : Cfg) (d : Int) (mc : MC) : MC × Option MotorState :=
  if mc.stallFlags = 0 then mc.goTo cfg d .stopped else (mc, none)

/-- The exit of Fault (R209). -/
def MC.smFault (cfg : Cfg) (d : Int) (mc : MC) : MC × Option MotorState :=
  if mc.faultFlags = 0 then mc.goTo cfg d .stopped else (mc, none)

/-- `SM(d, dist)` (R200): at most one transition, Fault before Stalled before the state's own exits (R201). The state
`Init` does not come here (R180). -/
def MC.sm (cfg : Cfg) (d : Int) (dist : Nat) (mc : MC) : MC × Option MotorState :=
  if mc.faultFlags ≠ 0 ∧ mc.mstate ≠ .fault then mc.goTo cfg d .fault
  else if mc.stallFlags ≠ 0 ∧ mc.faultFlags = 0 ∧ mc.mstate ≠ .stalled ∧ mc.mstate ≠ .fault then mc.goTo cfg d .stalled
  else
    match mc.mstate with
    | .init => (mc, none)
    | .stopped => mc.smStopped cfg d
    | .accelerating => mc.smAccelerating cfg d dist
    | .running => mc.smRunning cfg d dist
    | .decelerating => mc.smDecelerating cfg d dist
    | .paused => mc.smPaused cfg d
    | .stalled => mc.smStalled cfg d
    | .fault => mc.smFault cfg d

/-- `MC.elapsed` at the end of a tick (R180, R188): counted on when no transition was taken. -/
def MC.countElapsed (took : Option MotorState) (mc : MC) : MC :=
  if took = none then { mc with elapsed := satInc mc.elapsed } else mc

/-- `MC.enTimer` at the end of a tick (R180 sub-step 7, R187). -/
def MC.countEnabled (took : Option MotorState) (mc : MC) : MC :=
  if took = some .accelerating then mc
  else { mc with enTimer := if mc.outEn then satInc mc.enTimer else 0 }

/-- Sub-steps 1 to 5 of R180, on the readings of the step: what the state machine is evaluated on (R200). -/
def MC.measure (cfg : Cfg) (supply current instant : Nat) (hw : Latch) (mc : MC) : MC :=
  ((((mc.observe cfg).lookup cfg supply).reached cfg mc.travel.natAbs).stallDet cfg current).faultDet cfg current instant hw

/-- `EV_MTICK` on the Motor Controller (R180, R181). The two angles are written by no sub-step, so the travel is that of
the state before the tick. -/
def MC.tick (cfg : Cfg) (supply current instant : Nat) (hw : Latch) (mc : MC) : MC :=
  if mc.mstate = .init then { mc.enter cfg mc.travel .stopped with initStatus := true }
  else
    let r := (mc.measure cfg supply current instant hw).sm cfg mc.travel mc.travel.natAbs
    (r.1.countElapsed r.2).countEnabled r.2

/-- `EV_MTICK` (R180): the readings are those of the buffers as they stand. -/
def execEvMtick (s : State) : Host.Outcome State Fault Refusal :=
  .next { s with
    mc := s.mc.tick s.cfg (avg s.mem .vs) (iavg s.mem) (iinst s.mem s.sf.widx) s.hwpend,
    out := .none }

end Sys2Proof.Machine
end

