-- ==== Sys2Proof/Machine/ProtectionMonitor.lean ====
section
/-! DEFINITION. Protection Monitor (41_protection_monitor.md): `EV_HWPROT`, the monitors of `EV_ATICK` with the duty ramp of
R210, and the nine `GET_*` commands. -/

namespace Sys2Proof.Machine

/-! ### The hardware latch event -/

/-- `EV_HWPROT(m)` (R140): bits of `HWPEND` are set, never cleared. -/
def execEvHwprot (m : Latch) (s : State) : Host.Outcome State Fault Refusal :=
  .next { s with hwpend := s.hwpend ||| m, out := .none }

/-! ### The debounced monitor (R141) -/

/-- The condition of `MON`: 0 Normal, 1 low side, 2 high side (R141). -/
inductive Side where
  | normal | low | high
deriving DecidableEq, Repr

/-- Whether a reading crosses in the present condition (R141); all comparisons are strict (D13). -/
def monCrosses (cond : Side) (v lowStop lowRet highRet highStop : Nat) : Bool :=
  match cond with
  | .normal => decide (v < lowStop) || decide (highStop < v)
  | .low => decide (lowRet < v)
  | .high => decide (v < highRet)

/-- Where a completed count leads (R141): from Normal "the side of THIS sample decides", from a side back to Normal. -/
def monTarget (cond : Side) (v lowStop : Nat) : Side :=
  match cond with
  | .normal => if v < lowStop then .low else .high
  | .low => .normal
  | .high => .normal

/-- `MON` (R141): the new condition and counter. -/
def mon (cond : Side) (cnt : Word) (v lowStop lowRet highRet highStop trip : Nat) : Side × Word :=
  let c := monCrosses cond v lowStop lowRet highRet highStop
  let cnt' := updown cnt c
  if c = true ∧ trip ≤ cnt'.toNat then (monTarget cond v lowStop, 0) else (cond, cnt')

/-- `PM.vsCond` as a side of `MON` (R143). -/
def vsSide (c : VsCond) : Side :=
  match c with
  | .normal => .normal
  | .under => .low
  | .over => .high

/-- A side of `MON` as `PM.vsCond` (R143). -/
def sideVs (x : Side) : VsCond :=
  match x with
  | .normal => .normal
  | .low => .under
  | .high => .over

/-- `PM.ignCond` as a side of `MON` (R144). -/
def ignSide (c : IgnCond) : Side :=
  match c with
  | .normal => .normal
  | .off => .low

/-- A side of `MON` as the 1-bit `PM.ignCond` (R144): "the result is only ever 0 (Normal) or 1 (Off)", so the third line is
never used (entry 9). -/
def sideIgn (x : Side) : IgnCond :=
  match x with
  | .normal => .normal
  | .low => .off
  | .high => .normal

/-- `PM.tCond` as a side of `MON` (R145). -/
def tSide (c : TCond) : Side :=
  match c with
  | .normal => .normal
  | .low => .low
  | .high => .high

/-- A side of `MON` as `PM.tCond` (R145). -/
def sideT (x : Side) : TCond :=
  match x with
  | .normal => .normal
  | .low => .low
  | .high => .high

/-! ### The six monitors of `EV_ATICK`: each gives the new registers and the latch bits it re-arms -/

/-- `SUPPLY()` (R143). -/
def pmSupply (cfg : Cfg) (v : Nat) (hw : Latch) (pm : PM) : PM × Latch :=
  if pm.vsCond = .normal ∧ hasBit hw latchOV = true then ({ pm with vsCond := .over, vsCnt := 0 }, 0)
  else if pm.vsCond = .normal ∧ hasBit hw latchUV = true then ({ pm with vsCond := .under, vsCnt := 0 }, 0)
  else
    let r := mon (vsSide pm.vsCond) pm.vsCnt v cfg.VS_UNDER_STOP cfg.VS_UNDER_RETURN cfg.VS_OVER_RETURN
      cfg.VS_OVER_STOP cfg.VS_DEB
    ({ pm with vsCond := sideVs r.1, vsCnt := r.2 },
      pulseIf latchOV (decide (pm.vsCond = .over) && decide (sideVs r.1 = .normal) && hasBit hw latchOV) |||
      pulseIf latchUV (decide (pm.vsCond = .under) && decide (sideVs r.1 = .normal) && hasBit hw latchUV))

/-- `IGNITION()` (R144): only the low side exists; no hardware flag belongs to it. -/
def pmIgnition (cfg : Cfg) (v : Nat) (pm : PM) : PM :=
  let r := mon (ignSide pm.ignCond) pm.ignCnt v cfg.IGN_OFF_STOP cfg.IGN_OFF_RETURN 0 65536 cfg.IGN_DEB
  { pm with ignCond := sideIgn r.1, ignCnt := r.2 }

/-- `TEMPERATURE()` (R145). -/
def pmTemperature (cfg : Cfg) (v : Nat) (hw : Latch) (pm : PM) : PM × Latch :=
  if pm.tCond = .normal ∧ hasBit hw latchOT = true then ({ pm with tCond := .high, tCnt := 0 }, 0)
  else
    let r := mon (tSide pm.tCond) pm.tCnt v cfg.TEMP_LOW_STOP cfg.TEMP_LOW_RETURN cfg.TEMP_HIGH_RETURN
      cfg.TEMP_HIGH_STOP cfg.TEMP_DEB
    ({ pm with tCond := sideT r.1, tCnt := r.2 },
      pulseIf latchOT (decide (pm.tCond = .high) && decide (sideT r.1 = .normal) && hasBit hw latchOT))

/-- `MCUHEALTH()` (R146). -/
def pmMcuHealth (cfg : Cfg) (v : Nat) (pm : PM) : PM :=
  let c := if pm.mcuCond = .ok then decide (v < cfg.VDDA_FAULT) else decide (cfg.VDDA_OK < v)
  let cnt := updown pm.mcuCnt c
  if c = true ∧ cfg.VDDA_DEB ≤ cnt.toNat then
    { pm with mcuCond := if pm.mcuCond = .ok then .fault else .ok, mcuCnt := 0 }
  else { pm with mcuCnt := cnt }

/-- `HWOC()` (R147): raised from the latch, returned by the filtered current. -/
def pmHwOc (cfg : Cfg) (current : Nat) (hw : Latch) (pm : PM) : PM × Latch :=
  if pm.ocCond = .normal then
    if hasBit hw latchOC then ({ pm with ocCond := .over, ocCnt := 0 }, 0) else (pm, 0)
  else
    let c := decide (current < cfg.HWOC_RETURN)
    let cnt := updown pm.ocCnt c
    if c = true ∧ cfg.HW_DEB ≤ cnt.toNat then
      ({ pm with ocCond := .normal, ocCnt := 0 }, pulseIf latchOC (hasBit hw latchOC))
    else ({ pm with ocCnt := cnt }, 0)

/-- `HWVDS()` (R148): raised from the latch, returned while the bridge output is disabled. -/
def pmHwVds (cfg : Cfg) (outEn : Bool) (hw : Latch) (pm : PM) : PM × Latch :=
  if pm.vdsCond = .normal then
    if hasBit hw latchVDS then ({ pm with vdsCond := .short, vdsCnt := 0 }, 0) else (pm, 0)
  else
    let c := !outEn
    let cnt := updown pm.vdsCnt c
    if c = true ∧ cfg.HW_DEB ≤ cnt.toNat then
      ({ pm with vdsCond := .normal, vdsCnt := 0 }, pulseIf latchVDS (hasBit hw latchVDS))
    else ({ pm with vdsCnt := cnt }, 0)

/-- The six monitors in the order of R142 on the readings as they stand: the new registers and the mask `rearm`. -/
def pmTick (cfg : Cfg) (m : Memory) (hw : Latch) (outEn : Bool) (pm : PM) : PM × Latch :=
  let supply := pmSupply cfg (avg m .vs) hw pm
  let ignition := pmIgnition cfg (avg m .ign) supply.1
  let temperature := pmTemperature cfg (avg m .temp) hw ignition
  let mcu := pmMcuHealth cfg (avg m .vdda) temperature.1
  let oc := pmHwOc cfg (iavg m) hw mcu
  let vds := pmHwVds cfg outEn hw oc.1
  (vds.1, supply.2 ||| temperature.2 ||| oc.2 ||| vds.2)

/-- `RAMP()` (R210): while Accelerating the duty rises by a step, up to the full-speed duty. -/
def MC.ramp (cfg : Cfg) (mc : MC) : MC :=
  if mc.mstate = .accelerating then { mc with duty := toWord (min (mc.duty.toNat + cfg.RAMP_STEP) cfg.DUTY_FULL) }
  else mc

/-- `EV_ATICK` (R142): the monitors, the re-arm write (R149), the ramp (R210); outputs the mask `rearm`. -/
def execEvAtick (s : State) : Host.Outcome State Fault Refusal :=
  let r := pmTick s.cfg s.mem s.hwpend s.mc.outEn s.pm
  .next { s with pm := r.1, hwpend := s.hwpend &&& ~~~r.2, mc := s.mc.ramp s.cfg, out := .rearm r.2 }

/-! ### Commands (R160 to R168) -/

/-- `GET_VS_COND` (R160). -/
def execGetVsCond (s : State) : Host.Outcome State Fault Refusal :=
  .next (s.respond ((vsCode s.pm.vsCond).setWidth 16))

/-- `GET_IGN_COND` (R161). -/
def execGetIgnCond (s : State) : Host.Outcome State Fault Refusal :=
  .next (s.respond ((ignCode s.pm.ignCond).setWidth 16))

/-- `GET_TEMP_COND` (R162). -/
def execGetTempCond (s : State) : Host.Outcome State Fault Refusal :=
  .next (s.respond ((tCode s.pm.tCond).setWidth 16))

/-- `GET_MCU_COND` (R163). -/
def execGetMcuCond (s : State) : Host.Outcome State Fault Refusal :=
  .next (s.respond ((mcuCode s.pm.mcuCond).setWidth 16))

/-- `GET_HW_COND` (R164): `PM.ocCond + 2 * PM.vdsCond`. -/
def execGetHwCond (s : State) : Host.Outcome State Fault Refusal :=
  .next (s.respond (toWord ((ocCode s.pm.ocCond).toNat + 2 * (vdsCode s.pm.vdsCond).toNat)))

/-- `GET_VS` (R165). -/
def execGetVs (s : State) : Host.Outcome State Fault Refusal :=
  .next (s.respond (toWord (avg s.mem .vs)))

/-- `GET_IGN` (R166). -/
def execGetIgn (s : State) : Host.Outcome State Fault Refusal :=
  .next (s.respond (toWord (avg s.mem .ign)))

/-- `GET_TEMP` (R167). -/
def execGetTemp (s : State) : Host.Outcome State Fault Refusal :=
  .next (s.respond (toWord (avg s.mem .temp)))

/-- `GET_IMOT` (R168). -/
def execGetImot (s : State) : Host.Outcome State Fault Refusal :=
  .next (s.respond (toWord (iavg s.mem)))

end Sys2Proof.Machine
end

