-- ==== Sys2Proof/Machine/Reset.lean ====
section
/-! DEFINITION. The reset event (70_reset_and_hazards.md R290). -/

namespace Sys2Proof.Machine

/-- `EV_RST` (R290): every register of R20 and every sample word of R23 to 0. `CFG` "is not state and is not touched";
the stimulus still on the ports stays: coincident strobes "are then taken on the reset state". -/
def execEvRst (s : State) : Host.Outcome State Fault Refusal :=
  .next { s with sf := {}, pm := {}, hwpend := 0, mc := {}, mem := [], out := .none }

end Sys2Proof.Machine
end

