-- ==== Sys2Proof/Machine/SensorFusion.lean ====
section
/-! DEFINITION. Sensor Fusion (40_sensor_fusion.md): `EV_ADC`, `SET_SOFS`, `GET_SOFS`, `GET_ANGLE`. -/

namespace Sys2Proof.Machine

/-- `EV_ADC(raw)` (R120): ten words at slot `SF.widx`, then `SF.widx <- (SF.widx + 1) mod 8` (a 3-bit register wraps). -/
def execEvAdc (raw : Samples) (s : State) : Host.Outcome State Fault Refusal :=
  .next { s with mem := s.mem.writeSamples s.sf.widx raw, sf := { s.sf with widx := s.sf.widx + 1 }, out := .none }

/-- `SET_SOFS angle` (R130). -/
def execSetSofs (angle : Word) (s : State) : Host.Outcome State Fault Refusal :=
  withOperand .a angle s (State.respond 0 { s with sf := { s.sf with sensorOffset := toAngle angle.toNat } })

/-- `GET_SOFS` (R131). -/
def execGetSofs (s : State) : Host.Outcome State Fault Refusal :=
  .next (s.respond (s.sf.sensorOffset.setWidth 16))

/-- `GET_ANGLE` (R132). -/
def execGetAngle (s : State) : Host.Outcome State Fault Refusal :=
  .next (s.respond (toWord s.angle))

end Sys2Proof.Machine
end

