-- ==== Sys2Proof/Machine/Dispatch.lean ====
section
/-! DEFINITION. One arm per instruction: the rows of spec/opcode_table.json in its order. -/

namespace Sys2Proof.Machine

def exec (i : Instr) (s : State) : Host.Outcome State Fault Refusal :=
  match i with
  | .reqHstop => Sys2Proof.Machine.execReqHstop s
  | .clrHstop => Sys2Proof.Machine.execClrHstop s
  | .setTarget angle => Sys2Proof.Machine.execSetTarget angle s
  | .setCurpos angle => Sys2Proof.Machine.execSetCurpos angle s
  | .getState => Sys2Proof.Machine.execGetState s
  | .getStall => Sys2Proof.Machine.execGetStall s
  | .getFault => Sys2Proof.Machine.execGetFault s
  | .clrStall scope => Sys2Proof.Machine.execClrStall scope s
  | .clrFault scope => Sys2Proof.Machine.execClrFault scope s
  | .getTarget => Sys2Proof.Machine.execGetTarget s
  | .getCurpos => Sys2Proof.Machine.execGetCurpos s
  | .setSofs angle => Sys2Proof.Machine.execSetSofs angle s
  | .getSofs => Sys2Proof.Machine.execGetSofs s
  | .getAngle => Sys2Proof.Machine.execGetAngle s
  | .getVsCond => Sys2Proof.Machine.execGetVsCond s
  | .getIgnCond => Sys2Proof.Machine.execGetIgnCond s
  | .getTempCond => Sys2Proof.Machine.execGetTempCond s
  | .getMcuCond => Sys2Proof.Machine.execGetMcuCond s
  | .getHwCond => Sys2Proof.Machine.execGetHwCond s
  | .getVs => Sys2Proof.Machine.execGetVs s
  | .getIgn => Sys2Proof.Machine.execGetIgn s
  | .getTemp => Sys2Proof.Machine.execGetTemp s
  | .getImot => Sys2Proof.Machine.execGetImot s
  | .evHwprot m => Sys2Proof.Machine.execEvHwprot m s
  | .evAdc raw => Sys2Proof.Machine.execEvAdc raw s
  | .evMtick => Sys2Proof.Machine.execEvMtick s
  | .evAtick => Sys2Proof.Machine.execEvAtick s
  | .evRst => Sys2Proof.Machine.execEvRst s

end Sys2Proof.Machine
end

