-- ==== Sys2Proof/Decode.lean ====
section
/-! DEFINITION. From the ports to an instruction and back: the order of coincident strobes (R11), the command decoder in the
order of R95, the encoder, the byte-serial form of R73, and the host's `decodeTableWord`. -/

namespace Sys2Proof

/-! ### Commands (R90 to R97) -/

/-- What an assigned opcode stands for, given a legal operand. -/
structure CommandRow where
  opcode : BitVec 8
  format : Format
  make : Word → Instr

/-- The opcode map of R96, row by row. -/
def commandTable : List CommandRow := [
  ⟨0x10, .n, fun _ => .reqHstop⟩,
  ⟨0x11, .n, fun _ => .clrHstop⟩,
  ⟨0x12, .a, .setTarget⟩,
  ⟨0x13, .a, .setCurpos⟩,
  ⟨0x14, .n, fun _ => .getState⟩,
  ⟨0x15, .n, fun _ => .getStall⟩,
  ⟨0x16, .n, fun _ => .getFault⟩,
  ⟨0x17, .m2, .clrStall⟩,
  ⟨0x18, .m3, .clrFault⟩,
  ⟨0x19, .n, fun _ => .getTarget⟩,
  ⟨0x1A, .n, fun _ => .getCurpos⟩,
  ⟨0x20, .a, .setSofs⟩,
  ⟨0x21, .n, fun _ => .getSofs⟩,
  ⟨0x22, .n, fun _ => .getAngle⟩,
  ⟨0x30, .n, fun _ => .getVsCond⟩,
  ⟨0x31, .n, fun _ => .getIgnCond⟩,
  ⟨0x32, .n, fun _ => .getTempCond⟩,
  ⟨0x33, .n, fun _ => .getMcuCond⟩,
  ⟨0x34, .n, fun _ => .getHwCond⟩,
  ⟨0x38, .n, fun _ => .getVs⟩,
  ⟨0x39, .n, fun _ => .getIgn⟩,
  ⟨0x3A, .n, fun _ => .getTemp⟩,
  ⟨0x3B, .n, fun _ => .getImot⟩]

/-- `cmd_word[23:16]` (R90). -/
def opcodeOf (w : BitVec 24) : BitVec 8 := w.extractLsb' 16 8

/-- `cmd_word[15:0]`, read as an unsigned number (R90, R92). -/
def operandOf (w : BitVec 24) : Word := w.extractLsb' 0 16

/-- The row of an opcode, if it is assigned. -/
def rowOf (op : BitVec 8) : Option CommandRow := commandTable.find? (fun r => r.opcode == op)

/-- The command decoder, in the order of R95: the opcode first (`BADOP` whatever the operand), then the operand against
the format (`BADARG`), only then the command. -/
def decodeCommand (w : BitVec 24) : Except CmdError Instr :=
  match rowOf (opcodeOf w) with
  | none => .error .badOp
  | some r => if r.format.legal (operandOf w) then .ok (r.make (operandOf w)) else .error .badArg

/-- The byte-serial order of R73 for a command: opcode byte, operand high byte, operand low byte. -/
def commandOfBytes (op hi lo : Byte) : BitVec 24 := (op ++ hi ++ lo : BitVec (8 + 8 + 8))

/-- The three bytes of a command word in the order in which a byte-wide channel carries them (R73). -/
def commandBytes (w : BitVec 24) : List Byte := [w.extractLsb' 16 8, w.extractLsb' 8 8, w.extractLsb' 0 8]

/-! ### Strobes (R11, R91) -/

/-- The order in which coincident strobes are taken (R11). -/
def strobeOrder : List Strobe := [.rst, .hwprot, .adc, .mtick, .atick, .cmd]

/-- The bit of `ev` of a strobe (R91); a command has none. -/
def strobeBit (e : Strobe) : BitVec 5 :=
  match e with
  | .hwprot => 0b00001
  | .adc => 0b00010
  | .mtick => 0b00100
  | .atick => 0b01000
  | .rst => 0b10000
  | .cmd => 0

/-- Whether a strobe is asserted on the ports (R12, R91). -/
def isAsserted (p : Inputs) (e : Strobe) : Bool :=
  match e with
  | .cmd => p.cmdValid
  | .rst | .hwprot | .adc | .mtick | .atick => (p.ev &&& strobeBit e) != 0

/-- The strobe to be taken next: the first asserted one in the order of R11, none if the ports are quiet (U36). -/
def firstStrobe (p : Inputs) : Option Strobe := strobeOrder.find? (isAsserted p)

/-- The ports with one strobe taken. -/
def takeStrobe (p : Inputs) (e : Strobe) : Inputs :=
  match e with
  | .cmd => { p with cmdValid := false }
  | .rst | .hwprot | .adc | .mtick | .atick => { p with ev := p.ev &&& ~~~(strobeBit e) }

/-- The instruction of a strobe: an event with the data of its own port, or the command word decoded. Data ports of other
strobes are not read (U37). -/
def decodeStrobe (p : Inputs) (e : Strobe) : Except CmdError Instr :=
  match e with
  | .rst => .ok .evRst
  | .hwprot => .ok (.evHwprot p.hwSet)
  | .adc => .ok (.evAdc p.adcRaw)
  | .mtick => .ok .evMtick
  | .atick => .ok .evAtick
  | .cmd => decodeCommand p.cmdWord

/-- What the ports ask for next: nothing, an instruction, or a command refused by name. -/
def decode (p : Inputs) : Option (Except CmdError Instr) := (firstStrobe p).map (decodeStrobe p)

/-! ### The encoder, from the tables of R91 and R96 -/

/-- A command word from its opcode and operand field (R90). -/
def commandWord (op : BitVec 8) (operand : Word) : BitVec 24 := (op ++ operand : BitVec (8 + 16))

/-- The ports with one command presented and no strobe. -/
def commandInputs (w : BitVec 24) : Inputs := { cmdValid := true, cmdWord := w }

/-- The ports that present exactly one instruction: a command word (R96) or a strobe with its data (R91). -/
def encode (i : Instr) : Inputs :=
  match i with
  | .reqHstop => commandInputs (commandWord 0x10 0)
  | .clrHstop => commandInputs (commandWord 0x11 0)
  | .setTarget a => commandInputs (commandWord 0x12 a)
  | .setCurpos a => commandInputs (commandWord 0x13 a)
  | .getState => commandInputs (commandWord 0x14 0)
  | .getStall => commandInputs (commandWord 0x15 0)
  | .getFault => commandInputs (commandWord 0x16 0)
  | .clrStall m => commandInputs (commandWord 0x17 m)
  | .clrFault m => commandInputs (commandWord 0x18 m)
  | .getTarget => commandInputs (commandWord 0x19 0)
  | .getCurpos => commandInputs (commandWord 0x1A 0)
  | .setSofs a => commandInputs (commandWord 0x20 a)
  | .getSofs => commandInputs (commandWord 0x21 0)
  | .getAngle => commandInputs (commandWord 0x22 0)
  | .getVsCond => commandInputs (commandWord 0x30 0)
  | .getIgnCond => commandInputs (commandWord 0x31 0)
  | .getTempCond => commandInputs (commandWord 0x32 0)
  | .getMcuCond => commandInputs (commandWord 0x33 0)
  | .getHwCond => commandInputs (commandWord 0x34 0)
  | .getVs => commandInputs (commandWord 0x38 0)
  | .getIgn => commandInputs (commandWord 0x39 0)
  | .getTemp => commandInputs (commandWord 0x3A 0)
  | .getImot => commandInputs (commandWord 0x3B 0)
  | .evHwprot m => { ev := 0b00001, hwSet := m }
  | .evAdc raw => { ev := 0b00010, adcRaw := raw }
  | .evMtick => { ev := 0b00100 }
  | .evAtick => { ev := 0b01000 }
  | .evRst => { ev := 0b10000 }

/-! ### The host's table words -/

/-- The ports that a row of `spec/opcode_table.json` stands for when its bits are `w`: 24 bits are a command word; 8 bits
(or 5) are the 5-bit vector `ev`, with every data port 0. The port `ev` has five wires, so a bit above
them stands for nothing (entry 10). -/
def tableInputs (nbits w : Nat) : Option Inputs :=
  if nbits = 24 then (if w < 2 ^ 24 then some (commandInputs (BitVec.ofNat 24 w)) else none)
  else if nbits = 5 ∨ nbits = 8 then (if w < 2 ^ 5 then some { ev := BitVec.ofNat 5 w } else none)
  else none

/-- The instruction the decoder reads from such a row, none where it refuses. -/
def decodeTableWord (nbits w : Nat) : Option Instr :=
  match (tableInputs nbits w).bind decode with
  | some (.ok i) => some i
  | some (.error _) => none
  | none => none

end Sys2Proof
end

