-- ==== Sys2Proof/Machine/Fetch.lean ====
section
/-! DEFINITION. Taking the next event from the input ports (R5, R11, R78): the block has no program counter and no
instruction memory (R26, R82); what it runs next is what the outside world presents. -/

namespace Sys2Proof.Machine

/-- What the ports give a step. -/
inductive Fetched where
  | idle                                 -- nothing is presented and nothing will be: no event
  | quiet (s : State)                    -- a cycle with no strobe has passed: no event (U36)
  | run (i : Instr) (s : State)          -- an instruction, and the state with its strobe taken
  | refuse (e : CmdError) (s : State)    -- a command word refused, and the state with it taken
deriving DecidableEq, Repr

/-- The stimulus left when a strobe of the first cycle is taken: the cycle stays in front while it has another strobe. -/
def restInputs (p : Inputs) (e : Strobe) (rest : List Inputs) : List Inputs :=
  if (firstStrobe (takeStrobe p e)).isSome then takeStrobe p e :: rest else rest

/-- The next event: the first asserted strobe, in the order of R11, of the first cycle on the ports. -/
def fetch (s : State) : Fetched :=
  match s.inq with
  | [] => .idle
  | p :: rest =>
    match firstStrobe p with
    | none => .quiet { s with inq := rest }
    | some e =>
      match decodeStrobe p e with
      | .ok i => .run i { s with inq := restInputs p e rest }
      | .error err => .refuse err { s with inq := restInputs p e rest }

/-- One cycle of the ports put before all others. -/
def State.present (p : Inputs) (s : State) : State := { s with inq := p :: s.inq }

/-- A row of the opcode table presented on the ports as the next stimulus; nothing where it is no row. -/
def State.presentTable (nbits w : Nat) (s : State) : State :=
  match tableInputs nbits w with
  | some p => s.present p
  | none => s

end Sys2Proof.Machine
end

