-- ==== Sys2Proof/Machine/Step.lean ====
section
/-! DEFINITION. One step: one event taken from the ports and run to completion (R5, R78). -/

namespace Sys2Proof.Machine

/-- One step of the block (R10). An ill-formed configuration has no meaning (R9, entry 6). With no event there is no
step: the state stays as it is (U36, entry 7). A refused command is taken by `State.raise` (R260). -/
def step (s : State) : Host.Outcome State Fault Refusal :=
  if s.cfg.wf then
    match fetch s with
    | .idle => .next s
    | .quiet s' => .next s'
    | .run i s' => exec i s'
    | .refuse e s' => .next (s'.raise e)
  else .refused .illFormedConfig

/-- The state with one row of the opcode table presented as the next stimulus (entries 1 and 10). -/
def State.withFetchWord (s : State) (nbits w : Nat) : State := s.presentTable nbits w

end Sys2Proof.Machine
end

