-- ==== Sys2Proof/Machine/Pseudo.lean ====
section
/-! DEFINITION. The pseudo-instructions of R100 as lists of instructions, the stimulus that presents them, the boot sequence of
R292, and the textual notation of R99. None of them is state or adds behaviour: the block sees only what they
expand to. -/

namespace Sys2Proof.Machine

/-- `CLR_STALL_ALL` (R100). -/
def clrStallAll : List Instr := [.clrStall 3]

/-- `CLR_FAULT_ALL` (R100). -/
def clrFaultAll : List Instr := [.clrFault 7]

/-- `GET_MOTOR_STATE` (R100). -/
def getMotorState : List Instr := [.getState]

/-- `FILL ch=v ...` (R100): eight identical `EV_ADC`. -/
def fill (raw : Samples) : List Instr := List.replicate 8 (.evAdc raw)

/-- `TICK1MS` (R100): ten `EV_MTICK`, then one `EV_ATICK`. -/
def tick1ms : List Instr := List.replicate 10 .evMtick ++ [.evAtick]

/-- `MOVE_TO a` (R100). -/
def moveTo (angle : Word) : List Instr := [.clrHstop, .setTarget angle]

/-- `n * EV` (R99): a line repeated. -/
def times (n : Nat) (i : Instr) : List Instr := List.replicate n i

/-- A list of instructions as the stimulus that presents them one by one. -/
def stimulus (is : List Instr) : List Inputs := is.map encode

/-- Steps 1 to 5 of the boot sequence of R292: reset, the zero-point, eight conversions, the latches already set, the first
motor tick. Step 6 (`GET_ANGLE`, then `SET_CURPOS` with its result) needs the answer and is the owner's. -/
def bootSequence (offset : Word) (raw : Samples) (latches : Latch) : List Instr :=
  [.evRst, .setSofs offset] ++ fill raw ++ [.evHwprot latches, .evMtick]

/-- The mnemonic of an instruction, as R96 and R91 spell it. -/
def mnemonic (i : Instr) : String :=
  match i with
  | .reqHstop => "REQ_HSTOP"
  | .clrHstop => "CLR_HSTOP"
  | .setTarget _ => "SET_TARGET"
  | .setCurpos _ => "SET_CURPOS"
  | .getState => "GET_STATE"
  | .getStall => "GET_STALL"
  | .getFault => "GET_FAULT"
  | .clrStall _ => "CLR_STALL"
  | .clrFault _ => "CLR_FAULT"
  | .getTarget => "GET_TARGET"
  | .getCurpos => "GET_CURPOS"
  | .setSofs _ => "SET_SOFS"
  | .getSofs => "GET_SOFS"
  | .getAngle => "GET_ANGLE"
  | .getVsCond => "GET_VS_COND"
  | .getIgnCond => "GET_IGN_COND"
  | .getTempCond => "GET_TEMP_COND"
  | .getMcuCond => "GET_MCU_COND"
  | .getHwCond => "GET_HW_COND"
  | .getVs => "GET_VS"
  | .getIgn => "GET_IGN"
  | .getTemp => "GET_TEMP"
  | .getImot => "GET_IMOT"
  | .evHwprot _ => "EV_HWPROT"
  | .evAdc _ => "EV_ADC"
  | .evMtick => "EV_MTICK"
  | .evAtick => "EV_ATICK"
  | .evRst => "EV_RST"

/-- The bits of a latch mask, most significant first, as R99 writes them after `0b`. -/
def latchText (m : Latch) : String :=
  let bit := fun (i : Nat) => if m.getLsbD i then "1" else "0"
  "0b" ++ bit 4 ++ bit 3 ++ bit 2 ++ bit 1 ++ bit 0

/-- The ten samples as R99 writes them; every channel is named. -/
def samplesText (raw : Samples) : String :=
  "vs=" ++ raw.vs.toNat.repr ++ " temp=" ++ raw.temp.toNat.repr ++ " cur1=" ++ raw.cur1.toNat.repr ++
  " cur2=" ++ raw.cur2.toNat.repr ++ " vdda=" ++ raw.vdda.toNat.repr ++ " ign=" ++ raw.ign.toNat.repr ++
  " sinp=" ++ raw.sinp.toNat.repr ++ " sinn=" ++ raw.sinn.toNat.repr ++ " cosp=" ++ raw.cosp.toNat.repr ++
  " cosn=" ++ raw.cosn.toNat.repr

/-- The line of R99 for an instruction, operands in decimal. -/
def instrText (i : Instr) : String :=
  match i with
  | .setTarget a => mnemonic i ++ " " ++ a.toNat.repr
  | .setCurpos a => mnemonic i ++ " " ++ a.toNat.repr
  | .setSofs a => mnemonic i ++ " " ++ a.toNat.repr
  | .clrStall m => mnemonic i ++ " " ++ m.toNat.repr
  | .clrFault m => mnemonic i ++ " " ++ m.toNat.repr
  | .evHwprot m => mnemonic i ++ " " ++ latchText m
  | .evAdc raw => mnemonic i ++ " " ++ samplesText raw
  | .reqHstop | .clrHstop | .getState | .getStall | .getFault | .getTarget | .getCurpos | .getSofs | .getAngle
  | .getVsCond | .getIgnCond | .getTempCond | .getMcuCond | .getHwCond | .getVs | .getIgn | .getTemp | .getImot
  | .evMtick | .evAtick | .evRst => mnemonic i

/-- A response as R99 writes it after `->`. -/
def responseText (st : Status) (d : Word) : String :=
  match st with
  | .ok => "OK " ++ d.toNat.repr
  | .badOp => "BADOP " ++ d.toNat.repr
  | .badArg => "BADARG " ++ d.toNat.repr

end Sys2Proof.Machine
end

