-- ==== Sys2Proof/Safety.lean ====
section
/-! DEFINITION. What a sound state of the block is: the invariants of R45 and the legal ranges of R20, under a well-formed
configuration (R9). -/

namespace Sys2Proof.Machine

/-- "Every angle register is below 3600" (R45). -/
def State.anglesLegal (s : State) : Bool :=
  decide (s.sf.sensorOffset.toNat < 3600) && decide (s.mc.targetAngle.toNat < 3600) &&
  decide (s.mc.currentAngle.toNat < 3600) && decide (s.mc.refAngle.toNat < 3600) &&
  decide (s.mc.motionDelta.toNat < 3600)

/-- "Every `PM` counter is below its trip count" (R45, R20 rows 3 to 13, R40). -/
def State.monitorsLegal (s : State) : Bool :=
  decide (s.pm.vsCnt.toNat < s.cfg.VS_DEB) && decide (s.pm.ignCnt.toNat < s.cfg.IGN_DEB) &&
  decide (s.pm.tCnt.toNat < s.cfg.TEMP_DEB) && decide (s.pm.mcuCnt.toNat < s.cfg.VDDA_DEB) &&
  decide (s.pm.ocCnt.toNat < s.cfg.HW_DEB) && decide (s.pm.vdsCnt.toNat < s.cfg.HW_DEB)

/-- A moving state: Accelerating, Running or Decelerating (R45). -/
def isMoving (m : MotorState) : Bool :=
  match m with
  | .accelerating | .running | .decelerating => true
  | .init | .stopped | .paused | .stalled | .fault => false

/-- The Motor Controller part of R45, with the observer's window inside its range (R20 row 31), `Init` exactly until the
first motor tick (R28, R181), and duty 0 in `Init` and Stopped (R27, R186). -/
def State.motorLegal (s : State) : Bool :=
  !(s.mc.moveReq && s.mc.posReached) && (!s.mc.outEn || isMoving s.mc.mstate) &&
  (!s.mc.restore || decide (s.mc.mstate = .decelerating)) && (s.mc.outEn || decide (s.mc.enTimer = 0)) &&
  decide (s.mc.winCnt.toNat < s.cfg.MOTION_WIN) && (s.mc.initStatus != decide (s.mc.mstate = .init)) &&
  (s.mc.haveTarget || !s.mc.moveReq) &&
  (!(decide (s.mc.mstate = .init) || decide (s.mc.mstate = .stopped)) || decide (s.mc.duty = 0))

/-- A sound state: a well-formed configuration (R9), the invariants of R45, and a canonical sample memory. -/
def State.sound (s : State) : Bool :=
  s.cfg.wf && s.anglesLegal && s.monitorsLegal && s.motorLegal && s.mem.wf

end Sys2Proof.Machine
end

