-- ==== Sys2Proof/Certificates/Slice0/Obligations.lean ====
section
/-! DEFINITION. The statements for the provers, `def Obligations.<Name> : Prop`, and the vocabulary they share
(`Sys2Proof.Claims`): what the rules of spec/ say, spelled out beside the model and not through it. -/

namespace Sys2Proof.Claims

open Sys2Proof Sys2Proof.Machine

/-! ### Vocabulary: commands -/

/-- The opcodes of R96 of format `N`. -/
def opcodesN : List (BitVec 8) :=
  [0x10, 0x11, 0x14, 0x15, 0x16, 0x19, 0x1A, 0x21, 0x22, 0x30, 0x31, 0x32, 0x33, 0x34, 0x38, 0x39, 0x3A, 0x3B]

/-- The opcodes of R96 of format `A`. -/
def opcodesA : List (BitVec 8) := [0x12, 0x13, 0x20]

/-- The opcode of R96 of format `M2`. -/
def opcodesM2 : List (BitVec 8) := [0x17]

/-- The opcode of R96 of format `M3`. -/
def opcodesM3 : List (BitVec 8) := [0x18]

/-- An opcode of format `N` decodes to `i` with operand 0 and is `BADARG` with any other (R90, R95). -/
def DecodesN (op : BitVec 8) (i : Instr) : Prop :=
  ∀ x : BitVec 16, decodeCommand (op ++ x) = if x = 0#16 then .ok i else .error .badArg

/-- An opcode whose operand field is legal below a bound: it decodes to `make x`, or is `BADARG` (R90, R95). -/
def DecodesBelow (op : BitVec 8) (bound : Nat) (make : BitVec 16 → Instr) : Prop :=
  ∀ x : BitVec 16, decodeCommand (op ++ x) = if x.toNat < bound then .ok (make x) else .error .badArg

/-- The state with a response on the output ports and nothing else changed. -/
def answered (s : State) (st : Status) (data : Nat) : State := { s with out := .response st (BitVec.ofNat 16 data) }

/-- Commands, as against events (R5). -/
def isCommand (i : Instr) : Bool :=
  match i with
  | .evHwprot _ | .evAdc _ | .evMtick | .evAtick | .evRst => false
  | .reqHstop | .clrHstop | .setTarget _ | .setCurpos _ | .getState | .getStall | .getFault | .clrStall _ | .clrFault _
  | .getTarget | .getCurpos | .setSofs _ | .getSofs | .getAngle | .getVsCond | .getIgnCond | .getTempCond | .getMcuCond
  | .getHwCond | .getVs | .getIgn | .getTemp | .getImot => true

/-- A list of instructions run one after the other; it stops at the first that gives no next state. -/
def execAll : List Instr → State → Host.Outcome State Fault Refusal
  | [], s => .next s
  | i :: is, s =>
    match exec i s with
    | .next t => execAll is t
    | .fault f => .fault f
    | .refused r => .refused r

/-! ### Vocabulary: readings and travel -/

/-- The word `buf[c][i]` at word address `8·c + i` (R23, R72). -/
def slot (m : Memory) (c : Channel) (i : BitVec 3) : Nat := (m.readWord (wordAddr c i)).toNat

/-- `avg[c]` (R121). -/
def average (m : Memory) (c : Channel) : Nat :=
  (slot m c 0 + slot m c 1 + slot m c 2 + slot m c 3 + slot m c 4 + slot m c 5 + slot m c 6 + slot m c 7) / 8

/-- `iavg` (R122). -/
def filteredCurrent (m : Memory) : Nat := max (average m .cur1) (average m .cur2)

/-- `iinst` (R122): the slot before `SF.widx`, modulo 8. -/
def instantCurrent (m : Memory) (widx : BitVec 3) : Nat := max (slot m .cur1 (widx - 1)) (slot m .cur2 (widx - 1))

/-- `d` of R182. -/
def travel (s : State) : Int := (s.mc.targetAngle.toNat : Int) - (s.mc.currentAngle.toNat : Int)

/-- `dist` of R182. -/
def distance (s : State) : Nat := (travel s).natAbs

/-- The output is still enabled after the position-reached test of the tick (R184). -/
def drivenAfterTest (s : State) : Prop := s.mc.outEn = true ∧ s.cfg.OFF_HYST < distance s

/-- `updown` of R15 on numbers. -/
def counted (cnt : Nat) (c : Prop) [Decidable c] : Nat := if c then min (cnt + 1) 65535 else cnt - 1

/-! ### Vocabulary: a well-formed configuration (R7, R9) -/

/-- A u16 of R14. -/
def U16 (n : Nat) : Prop := n ≤ 65535

/-- A count of R7. -/
def Count (n : Nat) : Prop := 1 ≤ n ∧ n ≤ 65535

/-- The conditions of R9, with the ranges of the table of R7. -/
def WellFormedConfig (c : Cfg) : Prop :=
  (-32768 ≤ c.SIN_OFS ∧ c.SIN_OFS ≤ 32767 ∧ -32768 ≤ c.COS_OFS ∧ c.COS_OFS ≤ 32767) ∧
  (1 ≤ c.SINCOS_MAX ∧ c.SINCOS_MAX ≤ 32767 ∧ c.OCT_SPAN ≤ 450) ∧
  (∀ b ∈ c.OCT_BASE.toList, b ≤ 3599 ∧ b + c.OCT_SPAN ≤ 3600) ∧
  (c.VS_UNDER_STOP ≤ c.VS_UNDER_RETURN ∧ c.VS_UNDER_RETURN ≤ c.VS_OVER_RETURN ∧ c.VS_OVER_RETURN ≤ c.VS_OVER_STOP ∧
    U16 c.VS_OVER_STOP ∧ Count c.VS_DEB) ∧
  (c.IGN_OFF_STOP ≤ c.IGN_OFF_RETURN ∧ U16 c.IGN_OFF_RETURN ∧ Count c.IGN_DEB) ∧
  (c.TEMP_LOW_STOP ≤ c.TEMP_LOW_RETURN ∧ c.TEMP_LOW_RETURN ≤ c.TEMP_HIGH_RETURN ∧
    c.TEMP_HIGH_RETURN ≤ c.TEMP_HIGH_STOP ∧ U16 c.TEMP_HIGH_STOP ∧ Count c.TEMP_DEB) ∧
  (c.VDDA_FAULT ≤ c.VDDA_OK ∧ U16 c.VDDA_OK ∧ Count c.VDDA_DEB) ∧
  (U16 c.HWOC_RETURN ∧ Count c.HW_DEB) ∧
  (c.OFF_HYST ≤ 3599 ∧ c.ON_HYST ≤ 3599) ∧
  (c.START_DUTY ≤ c.DUTY_FULL ∧ c.SOFTSTOP_ENTRY ≤ c.DUTY_FULL ∧ Count c.DUTY_FULL ∧ Count c.RAMP_STEP) ∧
  (1 ≤ c.DECEL_WINDOW ∧ c.DECEL_WINDOW ≤ 3599 ∧ Count c.PAUSE_TICKS ∧ Count c.RESTORE_TICKS) ∧
  (U16 c.STALL_MASK_TICKS ∧ Count c.MOTION_WIN ∧ c.MOTION_STOP_MAX ≤ c.MOTION_LOW_MAX ∧ c.MOTION_LOW_MAX ≤ 3599) ∧
  (Count c.OBSTR_TRIP ∧ Count c.STALL_TRIP ∧ U16 c.OPEN_I_MAX ∧ Count c.OPEN_TRIP) ∧
  (U16 c.OC_CEILING ∧ Count c.OC_TRIP ∧ Count c.SHORT_TRIP) ∧
  (c.VTAB ≠ [] ∧ (∀ r ∈ c.VTAB, U16 r.vmin ∧ U16 r.half ∧ U16 r.full ∧ U16 r.minDuty) ∧
    c.VTAB.Pairwise (fun r r' => r.vmin < r'.vmin))

/-! ### Vocabulary: angles -/

/-- The property `ATAN2_OCT` of 95_test_vectors.md: exactness at the eight axis and diagonal directions. -/
def Atan2Oct (f : BitVec 16 → BitVec 16 → BitVec 16) : Prop :=
  ∀ a : Nat, 1 ≤ a → a ≤ 32767 →
    f 0 (BitVec.ofInt 16 a) = 0 ∧ f (BitVec.ofInt 16 a) (BitVec.ofInt 16 a) = BitVec.ofInt 16 8192 ∧
    f (BitVec.ofInt 16 a) 0 = BitVec.ofInt 16 16384 ∧
    f (BitVec.ofInt 16 a) (BitVec.ofInt 16 (-a)) = BitVec.ofInt 16 24576 ∧
    f 0 (BitVec.ofInt 16 (-a)) = BitVec.ofInt 16 (-32768) ∧
    f (BitVec.ofInt 16 (-a)) (BitVec.ofInt 16 (-a)) = BitVec.ofInt 16 (-24576) ∧
    f (BitVec.ofInt 16 (-a)) 0 = BitVec.ofInt 16 (-16384) ∧
    f (BitVec.ofInt 16 (-a)) (BitVec.ofInt 16 a) = BitVec.ofInt 16 (-8192)

/-- The eight directions: signs of sine and cosine, and the octant whose start they mark (R128, vector SF-3). -/
def directions : List (Int × Int × Nat) :=
  [(1, 0, 0), (1, 1, 1), (0, 1, 2), (-1, 1, 3), (-1, 0, 4), (-1, -1, 5), (0, -1, 6), (1, -1, 7)]

/-! ### Vocabulary: the debounced monitor -/

/-- A run of the monitor `MON` over a list of readings, one a tick. -/
def monAll (lowStop lowRet highRet highStop trip : Nat) (readings : List Nat) (start : Side × Word) : Side × Word :=
  readings.foldl (fun r v => mon r.1 r.2 v lowStop lowRet highRet highStop trip) start

/-! ### Vocabulary: the motor -/

/-- The codes of R27. -/
def motorStateNumber (m : MotorState) : Nat :=
  match m with
  | .init => 0
  | .stopped => 1
  | .accelerating => 2
  | .running => 3
  | .decelerating => 4
  | .paused => 5
  | .stalled => 6
  | .fault => 7

/-- "Direction reversal requested" (R185). -/
def reversing (s : State) : Prop :=
  (0 < travel s ∧ s.mc.dir = .rev) ∨ (travel s < 0 ∧ s.mc.dir = .fwd)

/-- The state that a motor tick leads to from `s` (R181, R200 to R209), read off `s` and off the flags and the motion delta
that the tick `s → t` leaves. -/
def NextMotorState (s t : State) (m : MotorState) : Prop :=
  match s.mc.mstate with
  | .init => m = .stopped
  | .fault => m = if t.mc.faultFlags ≠ 0 then .fault else .stopped
  | .stalled =>
    m = if t.mc.faultFlags ≠ 0 then .fault else if t.mc.stallFlags ≠ 0 then .stalled else .stopped
  | .stopped =>
    m = if t.mc.faultFlags ≠ 0 then .fault else if t.mc.stallFlags ≠ 0 then .stalled
        else if s.mc.moveReq = true ∧ s.cfg.OFF_HYST < distance s ∧ s.mc.hardStop = false then .accelerating
        else .stopped
  | .accelerating =>
    m = if t.mc.faultFlags ≠ 0 then .fault else if t.mc.stallFlags ≠ 0 then .stalled
        else if s.mc.hardStop = true then .stopped
        else if s.cfg.SOFTSTOP_ENTRY ≤ s.mc.duty.toNat ∧ distance s ≤ s.cfg.DECEL_WINDOW then .decelerating
        else if s.cfg.DUTY_FULL ≤ s.mc.duty.toNat then .running
        else .accelerating
  | .running =>
    (t.mc.faultFlags ≠ 0 → m = .fault) ∧
    (t.mc.faultFlags = 0 → t.mc.stallFlags ≠ 0 → m = .stalled) ∧
    (t.mc.faultFlags = 0 → t.mc.stallFlags = 0 →
      ((s.mc.hardStop = true ∨ s.mc.posReached = true ∨ distance s ≤ s.cfg.OFF_HYST) → m = .stopped) ∧
      (s.mc.hardStop = false → s.mc.posReached = false → s.cfg.OFF_HYST < distance s →
        (reversing s → m = .paused) ∧
        (¬ reversing s → m = if distance s ≤ s.cfg.DECEL_WINDOW then .decelerating else .running)))
  | .decelerating =>
    (t.mc.faultFlags ≠ 0 → m = .fault) ∧
    (t.mc.faultFlags = 0 → t.mc.stallFlags ≠ 0 → m = .stalled) ∧
    (t.mc.faultFlags = 0 → t.mc.stallFlags = 0 →
      (s.mc.hardStop = true → m = .stopped) ∧
      (s.mc.hardStop = false → s.mc.restore = true →
        m = if s.cfg.RESTORE_TICKS ≤ s.mc.restoreCnt.toNat + 1 then .stopped else .decelerating) ∧
      (s.mc.hardStop = false → s.mc.restore = false → t.mc.motionDelta.toNat ≤ s.cfg.MOTION_STOP_MAX →
        m = .decelerating) ∧
      (s.mc.hardStop = false → s.mc.restore = false → s.cfg.MOTION_STOP_MAX < t.mc.motionDelta.toNat →
        (reversing s → m = .paused) ∧ (¬ reversing s → m = .decelerating)))
  | .paused =>
    m = if t.mc.faultFlags ≠ 0 then .fault else if t.mc.stallFlags ≠ 0 then .stalled
        else if s.cfg.PAUSE_TICKS ≤ s.mc.elapsed.toNat + 1 then .stopped else .paused

/-- The pairs of the table of R212. -/
def transitionPairs : List (MotorState × MotorState) :=
  [(.init, .stopped),
   (.stopped, .fault), (.accelerating, .fault), (.running, .fault), (.decelerating, .fault), (.paused, .fault),
   (.stalled, .fault),
   (.stopped, .stalled), (.accelerating, .stalled), (.running, .stalled), (.decelerating, .stalled), (.paused, .stalled),
   (.stopped, .accelerating), (.accelerating, .stopped), (.accelerating, .decelerating), (.accelerating, .running),
   (.running, .stopped), (.running, .paused), (.running, .decelerating), (.decelerating, .stopped),
   (.decelerating, .paused), (.paused, .stopped), (.stalled, .stopped), (.fault, .stopped)]

end Sys2Proof.Claims

open Sys2Proof Sys2Proof.Machine

/-! ### Encoding -/

/-- R90, R91, R95, R96, R97: for every instruction, with every operand, decoding the ports that present it gives it back
when its operand is legal and `BADARG` when it is not. -/
def Obligations.DecodeInvertsEncode : Prop :=
  ∀ i : Instr, decode (encode i) = some (if i.wf = true then .ok i else .error .badArg)

/-- R90, R96: each command word has one meaning: what decodes is well formed and its encoding is that very word. -/
def Obligations.EncodeInvertsDecodeCommand : Prop :=
  ∀ (w : BitVec 24) (i : Instr), decodeCommand w = .ok i →
    i.wf = true ∧ encode i = { cmdValid := true, cmdWord := w }

/-- R261 with R95, R97 and R260: a word is `BADOP` exactly when its opcode is none of the 23, whatever the operand; it is
`BADARG` exactly when the opcode is assigned and the operand is illegal for its one format. -/
def Obligations.BadOpBeforeBadArg : Prop :=
  (Claims.opcodesN ++ Claims.opcodesA ++ Claims.opcodesM2 ++ Claims.opcodesM3).Nodup ∧
  (Claims.opcodesN ++ Claims.opcodesA ++ Claims.opcodesM2 ++ Claims.opcodesM3).length = 23 ∧
  ∀ (op : BitVec 8) (x : BitVec 16),
    (decodeCommand (op ++ x) = .error .badOp ↔
      op ∉ Claims.opcodesN ++ Claims.opcodesA ++ Claims.opcodesM2 ++ Claims.opcodesM3) ∧
    (decodeCommand (op ++ x) = .error .badArg ↔
      (op ∈ Claims.opcodesN ∧ x.toNat ≠ 0) ∨ (op ∈ Claims.opcodesA ∧ 3600 ≤ x.toNat) ∨
      (op ∈ Claims.opcodesM2 ∧ 3 < x.toNat) ∨ (op ∈ Claims.opcodesM3 ∧ 7 < x.toNat))

/-- 95_test_vectors.md, R91, R96: a few words of the spec, each decoding to the instruction it stands for. -/
def Obligations.SpecWordsDecode : Prop :=
  decodeCommand 0x100000 = .ok .reqHstop ∧ decodeCommand 0x120708 = .ok (.setTarget 1800) ∧
  decodeCommand 0x130384 = .ok (.setCurpos 900) ∧ decodeCommand 0x200BB8 = .ok (.setSofs 3000) ∧
  decodeCommand 0x170002 = .ok (.clrStall 2) ∧ decodeCommand 0x180004 = .ok (.clrFault 4) ∧
  decodeCommand 0x220000 = .ok .getAngle ∧ decodeCommand 0x3B0000 = .ok .getImot ∧
  decodeCommand 0x120E10 = .error .badArg ∧ decodeCommand 0x0F1234 = .error .badOp ∧
  decode { ev := 0b00100 } = some (.ok .evMtick) ∧ decode { ev := 0b00001, hwSet := 0b00010 } = some (.ok (.evHwprot 2))

/-- R73: the byte-serial order of command and response, most significant byte first. The status byte is the 2-bit
`rsp_status` of R93; that its upper six bits are 0 is the model's choice (entry 20). -/
def Obligations.SerialOrderMostSignificantFirst : Prop :=
  (∀ op hi lo : BitVec 8, commandBytes (commandOfBytes op hi lo) = [op, hi, lo] ∧
    opcodeOf (commandOfBytes op hi lo) = op ∧ operandOf (commandOfBytes op hi lo) = hi ++ lo) ∧
  (∀ d : BitVec 16, responseBytes .ok d = [0, d.extractLsb' 8 8, d.extractLsb' 0 8] ∧
    responseBytes .badOp d = [1, d.extractLsb' 8 8, d.extractLsb' 0 8] ∧
    responseBytes .badArg d = [2, d.extractLsb' 8 8, d.extractLsb' 0 8])

/-! ### One step -/

/-- R5, R11, R78: when the first strobe on the ports decodes to an instruction, a step is that instruction's meaning on the
state with that strobe taken; the cycle stays in front while another strobe of it is asserted. -/
def Obligations.StepRunsDecodedInstruction : Prop :=
  ∀ (s : State) (p : Inputs) (rest : List Inputs) (e : Strobe) (i : Instr),
    s.cfg.wf = true → s.inq = p :: rest → firstStrobe p = some e → decodeStrobe p e = .ok i →
    step s = exec i
      { s with inq := if (firstStrobe (takeStrobe p e)).isSome = true then takeStrobe p e :: rest else rest }

/-- R93, R260: a refused command word is answered in its step with its status and data 0, and the whole state is otherwise
unchanged but for the word having been taken. -/
def Obligations.RefusedCommandChangesNothing : Prop :=
  ∀ (s : State) (p : Inputs) (rest : List Inputs),
    s.cfg.wf = true → s.inq = p :: rest → firstStrobe p = some .cmd →
    (decodeCommand p.cmdWord = .error .badOp → step s = .next (Claims.answered { s with inq := rest } .badOp 0)) ∧
    (decodeCommand p.cmdWord = .error .badArg → step s = .next (Claims.answered { s with inq := rest } .badArg 0))

/-- R11: coincident strobes are taken in the order reset, latch, conversion, motor tick, application tick, command; taking
one leaves the others asserted and the data ports as they are. -/
def Obligations.StrobesTakenInOrder : Prop :=
  ∀ p : Inputs,
    (firstStrobe p =
      if p.ev.getLsbD 4 = true then some .rst else if p.ev.getLsbD 0 = true then some .hwprot
      else if p.ev.getLsbD 1 = true then some .adc else if p.ev.getLsbD 2 = true then some .mtick
      else if p.ev.getLsbD 3 = true then some .atick else if p.cmdValid = true then some .cmd else none) ∧
    ∀ e : Strobe,
      (∀ e' : Strobe, isAsserted (takeStrobe p e) e' = (isAsserted p e' && decide (e' ≠ e))) ∧
      (takeStrobe p e).hwSet = p.hwSet ∧ (takeStrobe p e).adcRaw = p.adcRaw ∧ (takeStrobe p e).cmdWord = p.cmdWord

/-- R9, R258, 93 ("Nothing in the block halts, and nothing traps"): under a well-formed configuration, with the conditions of
R9 spelled out, every step answers a next state and leaves the configuration alone; an ill-formed one is refused. Where the refusal stands,
and that a step with no event answers the same state, is the model's choice (entries 6 and 7). -/
def Obligations.StepAnswersExactlyOnWellFormedConfigs : Prop :=
  ∀ s : State,
    (Claims.WellFormedConfig s.cfg → ∃ t, step s = .next t ∧ t.cfg = s.cfg) ∧
    (¬ Claims.WellFormedConfig s.cfg → step s = .refused .illFormedConfig)

/-- R91, U36: no strobe is no event. The model's choice (entry 7): the machine then stays in its state, and a quiet cycle
of the ports is passed over. -/
def Obligations.NoStrobeIsNoEvent : Prop :=
  ∀ s : State, s.cfg.wf = true →
    (s.inq = [] → step s = .next s) ∧
    (∀ p rest, s.inq = p :: rest → p.ev = 0 → p.cmdValid = false → step s = .next { s with inq := rest })

/-! ### Commands of the Motor Controller -/

/-- R240, R241: the hard-stop request bit. -/
def Obligations.HardStopRequestBit : Prop :=
  Claims.DecodesN 0x10 .reqHstop ∧ Claims.DecodesN 0x11 .clrHstop ∧
  ∀ s : State,
    exec .reqHstop s = .next (Claims.answered { s with mc := { s.mc with hardStop := true } } .ok 0) ∧
    exec .clrHstop s = .next (Claims.answered { s with mc := { s.mc with hardStop := false } } .ok 0)

/-- R242: `SET_TARGET` refuses 3600 and more, is a no-op within `ON_HYST` of the last committed target, and commits
otherwise; nothing else changes. -/
def Obligations.SetTargetCommitsOrHolds : Prop :=
  Claims.DecodesBelow 0x12 3600 .setTarget ∧
  ∀ (s : State) (x : BitVec 16),
    exec (.setTarget x) s = .next
      (if 3600 ≤ x.toNat then Claims.answered s .badArg 0
       else if s.mc.haveTarget = true ∧ ((x.toNat : Int) - (s.mc.targetAngle.toNat : Int)).natAbs ≤ s.cfg.ON_HYST then
         Claims.answered s .ok 0
       else Claims.answered
         { s with mc := { s.mc with targetAngle := BitVec.ofNat 12 x.toNat, haveTarget := true, moveReq := true,
                                    posReached := false } } .ok 1)

/-- R243: `SET_CURPOS` writes `MC.currentAngle` and nothing else. -/
def Obligations.SetCurposWritesCurrentAngle : Prop :=
  Claims.DecodesBelow 0x13 3600 .setCurpos ∧
  ∀ (s : State) (x : BitVec 16),
    exec (.setCurpos x) s = .next
      (if 3600 ≤ x.toNat then Claims.answered s .badArg 0
       else Claims.answered { s with mc := { s.mc with currentAngle := BitVec.ofNat 12 x.toNat } } .ok 0)

/-- R244, R245, R246, R249, R250: the getters of the Motor Controller answer their register and change nothing;
in `Init` the state reads 0, and the target reads 0 after reset. -/
def Obligations.MotorGettersAnswer : Prop :=
  (Claims.DecodesN 0x14 .getState ∧ Claims.DecodesN 0x15 .getStall ∧ Claims.DecodesN 0x16 .getFault ∧
    Claims.DecodesN 0x19 .getTarget ∧ Claims.DecodesN 0x1A .getCurpos) ∧
  ∀ s : State,
    exec .getState s = .next (Claims.answered s .ok (Claims.motorStateNumber s.mc.mstate)) ∧
    exec .getStall s = .next (Claims.answered s .ok s.mc.stallFlags.toNat) ∧
    exec .getFault s = .next (Claims.answered s .ok s.mc.faultFlags.toNat) ∧
    exec .getTarget s = .next (Claims.answered s .ok s.mc.targetAngle.toNat) ∧
    exec .getCurpos s = .next (Claims.answered s .ok s.mc.currentAngle.toNat) ∧
    (s.mc.mstate = .init → exec .getState s = .next (Claims.answered s .ok 0)) ∧
    exec .getTarget State.reset = .next (Claims.answered State.reset .ok 0)

/-- R247, R248: the clears refuse a scope above their mask; a legal scope clears exactly the flags it selects, answers the
flags after clearing, and changes nothing else. -/
def Obligations.ClearsSelectedFlags : Prop :=
  (Claims.DecodesBelow 0x17 4 .clrStall ∧ Claims.DecodesBelow 0x18 8 .clrFault) ∧
  (∀ (s : State) (x : BitVec 16), ∃ t, exec (.clrStall x) s = .next t ∧
    (3 < x.toNat → t = Claims.answered s .badArg 0) ∧
    (x.toNat ≤ 3 →
      t = Claims.answered { s with mc := { s.mc with stallFlags := t.mc.stallFlags } } .ok t.mc.stallFlags.toNat ∧
      ∀ b, b < 2 → t.mc.stallFlags.getLsbD b = (s.mc.stallFlags.getLsbD b && !x.getLsbD b))) ∧
  (∀ (s : State) (x : BitVec 16), ∃ t, exec (.clrFault x) s = .next t ∧
    (7 < x.toNat → t = Claims.answered s .badArg 0) ∧
    (x.toNat ≤ 7 →
      t = Claims.answered { s with mc := { s.mc with faultFlags := t.mc.faultFlags } } .ok t.mc.faultFlags.toNat ∧
      ∀ b, b < 3 → t.mc.faultFlags.getLsbD b = (s.mc.faultFlags.getLsbD b && !x.getLsbD b)))

/-! ### Sensor Fusion -/

/-- R130, R131: the zero-point is written by `SET_SOFS` (3600 and more refused) and read by `GET_SOFS`, 0 after reset. -/
def Obligations.SensorOffsetCommands : Prop :=
  (Claims.DecodesBelow 0x20 3600 .setSofs ∧ Claims.DecodesN 0x21 .getSofs) ∧
  ∀ (s : State) (x : BitVec 16),
    exec (.setSofs x) s = .next
      (if 3600 ≤ x.toNat then Claims.answered s .badArg 0
       else Claims.answered { s with sf := { s.sf with sensorOffset := BitVec.ofNat 12 x.toNat } } .ok 0) ∧
    exec .getSofs s = .next (Claims.answered s .ok s.sf.sensorOffset.toNat) ∧
    exec .getSofs State.reset = .next (Claims.answered State.reset .ok 0)

/-- R123 to R127, R132: `GET_ANGLE` answers the angle computed from the averages of the four GMR channels, for whatever
function `CFG.ATAN2` is, and changes nothing. -/
def Obligations.GetAngleAnswersTheAngle : Prop :=
  Claims.DecodesN 0x22 .getAngle ∧
  ∀ s : State,
    let sinD : Int := (Claims.average s.mem .sinp : Int) - (Claims.average s.mem .sinn : Int)
    let cosD : Int := (Claims.average s.mem .cosp : Int) - (Claims.average s.mem .cosn : Int)
    let sine : Int := max (-(s.cfg.SINCOS_MAX : Int)) (min (sinD - s.cfg.SIN_OFS) (s.cfg.SINCOS_MAX : Int))
    let cosine : Int := max (-(s.cfg.SINCOS_MAX : Int)) (min (cosD - s.cfg.COS_OFS) (s.cfg.SINCOS_MAX : Int))
    let u : Nat := (Config.atan2 (BitVec.ofInt 16 cosine) (BitVec.ofInt 16 sine)).toNat
    let angRaw : Nat := s.cfg.OCT_BASE.toList.getD (u / 8192) 0 + (u % 8192 * s.cfg.OCT_SPAN) / 8192
    exec .getAngle s = .next (Claims.answered s .ok ((angRaw + s.sf.sensorOffset.toNat) % 3600))

/-- R125: under a well-formed configuration the remap lands in 0..3599. -/
def Obligations.RemapBelow3600 : Prop :=
  ∀ (cfg : Cfg) (frac : BitVec 16), cfg.wf = true → remap cfg frac < 3600

/-- R125, the spec's own inference: under `REFCFG` the remap is `(u · 3600) div 65536`. -/
def Obligations.ReferenceRemapIsUniform : Prop :=
  ∀ frac : BitVec 16, remap refCfg frac = frac.toNat * 3600 / 65536

/-- R128, vector SF-3: for every arctangent with `ATAN2_OCT`, under `REFCFG`, the eight axis and diagonal directions give
their octant's start, turned by the zero offset. -/
def Obligations.EightDirectionsExact : Prop :=
  ∀ f : BitVec 16 → BitVec 16 → BitVec 16, Claims.Atan2Oct f →
    ∀ (m : Memory) (offset : BitVec 12) (a : Nat), 1 ≤ a → a ≤ 32767 →
      ∀ dir ∈ Claims.directions,
        (Claims.average m .sinp : Int) - (Claims.average m .sinn : Int) = a * dir.1 →
        (Claims.average m .cosp : Int) - (Claims.average m .cosn : Int) = a * dir.2.1 →
        angleWith f refCfg m offset = (450 * dir.2.2 + offset.toNat) % 3600

/-- R127, the spec's own inference: the angle does not depend on the order of the samples in a window. -/
def Obligations.AngleIgnoresSampleOrder : Prop :=
  ∀ (f : BitVec 16 → BitVec 16 → BitVec 16) (cfg : Cfg) (m m' : Memory) (offset : BitVec 12),
    (∀ c ∈ ([.sinp, .sinn, .cosp, .cosn] : List Channel), (m.window c).Perm (m'.window c)) →
    angleWith f cfg m offset = angleWith f cfg m' offset

/-- R120: `EV_ADC`, strobe bit 1 with the ten samples on their port, writes them at slot `SF.widx`, leaves every other word
and byte of the sample memory alone, advances `SF.widx` modulo 8, and changes nothing else. -/
def Obligations.AdcWritesOneSlotPerChannel : Prop :=
  (∀ raw : Samples, decode { ev := 0b00010, adcRaw := raw } = some (.ok (.evAdc raw))) ∧
  ∀ (s : State) (raw : Samples), s.mem.wf = true → ∃ t, exec (.evAdc raw) s = .next t ∧
    (∀ c i, t.mem.readWord (wordAddr c i) = if i = s.sf.widx then sampleOf raw c else s.mem.readWord (wordAddr c i)) ∧
    (∀ k, (∀ c, k ≠ 2 * (wordAddr c s.sf.widx).val ∧ k ≠ 2 * (wordAddr c s.sf.widx).val + 1) →
      t.mem.readByte k = s.mem.readByte k) ∧
    t.sf.widx.toNat = (s.sf.widx.toNat + 1) % 8 ∧
    t = { s with mem := t.mem, sf := { s.sf with widx := t.sf.widx }, out := .none }

/-- R100, R121: eight identical conversions make the average and the last sample of every channel that sample. -/
def Obligations.FillSetsEveryReading : Prop :=
  ∀ (s : State) (raw : Samples), s.mem.wf = true → ∃ t, Claims.execAll (fill raw) s = .next t ∧ t.sf = s.sf ∧
    ∀ c : Channel, avg t.mem c = (sampleOf raw c).toNat ∧ last t.mem t.sf.widx c = (sampleOf raw c).toNat

/-! ### Reset -/

/-- R290, R43: from any state, `EV_RST`, strobe bit 4, puts every register and every sample word to 0; `CFG` and the
stimulus still on the ports are not touched; the outputs are off. The state after reset is that same state. R211: the level
outputs, in every state, are the enable, the direction turned by `POLE_POL`, and the duty. -/
def Obligations.ResetClearsEverything : Prop :=
  decode { ev := 0b10000 } = some (.ok .evRst) ∧
  (∀ s : State, ∃ t, exec .evRst s = .next t ∧
    (∀ i, i < 44 → t.x i = 0) ∧ (∀ c i, t.mem.readWord (wordAddr c i) = 0) ∧ (∀ k, t.mem.readByte k = 0) ∧
    t.mc.mstate = .init ∧ t.cfg = s.cfg ∧ t.inq = s.inq ∧ t.out = .none ∧
    t.outEn = false ∧ t.outDuty = 0 ∧ t.outDir = s.cfg.POLE_POL ∧
    t = { State.reset with cfg := s.cfg, inq := s.inq }) ∧
  (∀ i, i < 44 → State.reset.x i = 0) ∧ (∀ k, State.reset.mem.readByte k = 0) ∧
  (∀ s : State, s.outEn = s.mc.outEn ∧ s.outDuty = s.mc.duty ∧
    (s.mc.dir = .fwd → s.outDir = s.cfg.POLE_POL) ∧ (s.mc.dir = .rev → s.outDir = !s.cfg.POLE_POL))

/-! ### Protection Monitor: commands -/

/-- R160 to R164: the condition getters answer the codes of their conditions and change nothing; the supply condition
reads 0 after reset. -/
def Obligations.ConditionGettersAnswer : Prop :=
  (Claims.DecodesN 0x30 .getVsCond ∧ Claims.DecodesN 0x31 .getIgnCond ∧ Claims.DecodesN 0x32 .getTempCond ∧
    Claims.DecodesN 0x33 .getMcuCond ∧ Claims.DecodesN 0x34 .getHwCond) ∧
  ∀ s : State,
    exec .getVsCond s = .next (Claims.answered s .ok
      (match s.pm.vsCond with | .normal => 0 | .under => 1 | .over => 2)) ∧
    exec .getIgnCond s = .next (Claims.answered s .ok (match s.pm.ignCond with | .normal => 0 | .off => 1)) ∧
    exec .getTempCond s = .next (Claims.answered s .ok
      (match s.pm.tCond with | .normal => 0 | .low => 1 | .high => 2)) ∧
    exec .getMcuCond s = .next (Claims.answered s .ok (match s.pm.mcuCond with | .ok => 0 | .fault => 1)) ∧
    exec .getHwCond s = .next (Claims.answered s .ok
      ((match s.pm.ocCond with | .normal => 0 | .over => 1) + 2 * (match s.pm.vdsCond with | .normal => 0 | .short => 1))) ∧
    exec .getVsCond State.reset = .next (Claims.answered State.reset .ok 0)

/-- R165 to R168, R121, R122: the numeric getters answer the moving averages and change nothing. -/
def Obligations.ReadingGettersAnswer : Prop :=
  (Claims.DecodesN 0x38 .getVs ∧ Claims.DecodesN 0x39 .getIgn ∧ Claims.DecodesN 0x3A .getTemp ∧
    Claims.DecodesN 0x3B .getImot) ∧
  ∀ s : State,
    exec .getVs s = .next (Claims.answered s .ok (Claims.average s.mem .vs)) ∧
    exec .getIgn s = .next (Claims.answered s .ok (Claims.average s.mem .ign)) ∧
    exec .getTemp s = .next (Claims.answered s .ok (Claims.average s.mem .temp)) ∧
    exec .getImot s = .next (Claims.answered s .ok (Claims.filteredCurrent s.mem))

/-! ### Protection Monitor: events -/

/-- R140: `EV_HWPROT`, strobe bit 0 with the mask on its port, sets bits of `HWPEND`, clears none, and changes nothing else. -/
def Obligations.HwprotSetsLatchBits : Prop :=
  (∀ m : BitVec 5, decode { ev := 0b00001, hwSet := m } = some (.ok (.evHwprot m))) ∧
  ∀ (s : State) (m : BitVec 5), ∃ t, exec (.evHwprot m) s = .next t ∧
    (∀ b, b < 5 → t.hwpend.getLsbD b = (s.hwpend.getLsbD b || m.getLsbD b)) ∧
    t = { s with hwpend := t.hwpend, out := .none }

/-- R141: the generic monitor step, case by case. -/
def Obligations.MonitorStepFollowsThresholds : Prop :=
  ∀ (cnt : BitVec 16) (v lowStop lowRet highRet highStop trip : Nat),
    (mon .normal cnt v lowStop lowRet highRet highStop trip =
      if (v < lowStop ∨ highStop < v) ∧ trip ≤ min (cnt.toNat + 1) 65535 then
        (if v < lowStop then .low else .high, 0)
      else (.normal, BitVec.ofNat 16 (Claims.counted cnt.toNat (v < lowStop ∨ highStop < v)))) ∧
    (mon .low cnt v lowStop lowRet highRet highStop trip =
      if lowRet < v ∧ trip ≤ min (cnt.toNat + 1) 65535 then (.normal, 0)
      else (.low, BitVec.ofNat 16 (Claims.counted cnt.toNat (lowRet < v)))) ∧
    (mon .high cnt v lowStop lowRet highRet highStop trip =
      if v < highRet ∧ trip ≤ min (cnt.toNat + 1) 65535 then (.normal, 0)
      else (.high, BitVec.ofNat 16 (Claims.counted cnt.toNat (v < highRet))))

/-- R150, the spec's own inference: from Normal with count 0, N crossing readings in a row change the condition on the N-th
and on no earlier one; the last reading picks the side and the count is then 0. -/
def Obligations.DebounceTripsExactlyAtCount : Prop :=
  ∀ (lowStop lowRet highRet highStop trip : Nat) (readings : List Nat) (final : Nat),
    1 ≤ trip → trip ≤ 65535 → readings.length + 1 = trip →
    (∀ v ∈ final :: readings, v < lowStop ∨ highStop < v) →
    (∀ k, k ≤ readings.length →
      Claims.monAll lowStop lowRet highRet highStop trip (readings.take k) (.normal, 0) = (.normal, BitVec.ofNat 16 k)) ∧
    Claims.monAll lowStop lowRet highRet highStop trip (readings ++ [final]) (.normal, 0) =
      (if final < lowStop then .low else .high, 0)

/-- R150, the spec's own inference: after N − 1 crossing readings one reading that crosses nothing leaves N − 2, and two more
crossing readings are then needed. -/
def Obligations.DebounceMissStepsBack : Prop :=
  ∀ (lowStop lowRet highRet highStop trip v miss v' : Nat) (cnt : BitVec 16),
    2 ≤ trip → trip ≤ 65535 → cnt.toNat + 1 = trip → lowStop ≤ miss → miss ≤ highStop →
    (v < lowStop ∨ highStop < v) → (v' < lowStop ∨ highStop < v') →
    Claims.monAll lowStop lowRet highRet highStop trip [miss] (.normal, cnt) = (.normal, BitVec.ofNat 16 (trip - 2)) ∧
    Claims.monAll lowStop lowRet highRet highStop trip [miss, v] (.normal, cnt) = (.normal, BitVec.ofNat 16 (trip - 1)) ∧
    Claims.monAll lowStop lowRet highRet highStop trip [miss, v, v'] (.normal, cnt) =
      (if v' < lowStop then .low else .high, 0)

/-- R150, the spec's own inference: readings inside the hysteresis band never trip and never return, however many there are;
the count only walks down. -/
def Obligations.HysteresisBandHolds : Prop :=
  ∀ (lowStop lowRet highRet highStop trip : Nat) (readings : List Nat) (cnt : BitVec 16),
    ((∀ v ∈ readings, lowStop ≤ v ∧ v ≤ highStop) →
      Claims.monAll lowStop lowRet highRet highStop trip readings (.normal, cnt) =
        (.normal, BitVec.ofNat 16 (cnt.toNat - readings.length))) ∧
    ((∀ v ∈ readings, v ≤ lowRet) →
      Claims.monAll lowStop lowRet highRet highStop trip readings (.low, cnt) =
        (.low, BitVec.ofNat 16 (cnt.toNat - readings.length))) ∧
    ((∀ v ∈ readings, highRet ≤ v) →
      Claims.monAll lowStop lowRet highRet highStop trip readings (.high, cnt) =
        (.high, BitVec.ofNat 16 (cnt.toNat - readings.length)))

/-- R143: the supply monitor on the application tick: `OV` before `UV` raises at once from Normal, otherwise `MON` on the
average; a latch bit is re-armed exactly when the condition it raises returns to Normal. -/
def Obligations.SupplyMonitor : Prop :=
  ∀ s : State, ∃ t, exec .evAtick s = .next t ∧
    (s.pm.vsCond = .normal → s.hwpend.getLsbD 0 = true → t.pm.vsCond = .over ∧ t.pm.vsCnt = 0) ∧
    (s.pm.vsCond = .normal → s.hwpend.getLsbD 0 = false → s.hwpend.getLsbD 1 = true →
      t.pm.vsCond = .under ∧ t.pm.vsCnt = 0) ∧
    ((s.pm.vsCond ≠ .normal ∨ (s.hwpend.getLsbD 0 = false ∧ s.hwpend.getLsbD 1 = false)) →
      (vsSide t.pm.vsCond, t.pm.vsCnt) =
        mon (vsSide s.pm.vsCond) s.pm.vsCnt (Claims.average s.mem .vs) s.cfg.VS_UNDER_STOP s.cfg.VS_UNDER_RETURN
          s.cfg.VS_OVER_RETURN s.cfg.VS_OVER_STOP s.cfg.VS_DEB) ∧
    (t.rearmPort.getLsbD 0 = true ↔ s.pm.vsCond = .over ∧ t.pm.vsCond = .normal ∧ s.hwpend.getLsbD 0 = true) ∧
    (t.rearmPort.getLsbD 1 = true ↔ s.pm.vsCond = .under ∧ t.pm.vsCond = .normal ∧ s.hwpend.getLsbD 1 = true)

/-- R144: the ignition monitor has the low side only; its result is never the high side. -/
def Obligations.IgnitionMonitor : Prop :=
  ∀ s : State, ∃ t, exec .evAtick s = .next t ∧
    (ignSide t.pm.ignCond, t.pm.ignCnt) =
      mon (ignSide s.pm.ignCond) s.pm.ignCnt (Claims.average s.mem .ign) s.cfg.IGN_OFF_STOP s.cfg.IGN_OFF_RETURN
        0 65536 s.cfg.IGN_DEB

/-- R145: the temperature monitor: `OT` raises High at once from Normal, otherwise `MON` on the average; `OT` is re-armed
exactly when High returns to Normal. -/
def Obligations.TemperatureMonitor : Prop :=
  ∀ s : State, ∃ t, exec .evAtick s = .next t ∧
    (s.pm.tCond = .normal → s.hwpend.getLsbD 2 = true → t.pm.tCond = .high ∧ t.pm.tCnt = 0) ∧
    ((s.pm.tCond ≠ .normal ∨ s.hwpend.getLsbD 2 = false) →
      (tSide t.pm.tCond, t.pm.tCnt) =
        mon (tSide s.pm.tCond) s.pm.tCnt (Claims.average s.mem .temp) s.cfg.TEMP_LOW_STOP s.cfg.TEMP_LOW_RETURN
          s.cfg.TEMP_HIGH_RETURN s.cfg.TEMP_HIGH_STOP s.cfg.TEMP_DEB) ∧
    (t.rearmPort.getLsbD 2 = true ↔ s.pm.tCond = .high ∧ t.pm.tCond = .normal ∧ s.hwpend.getLsbD 2 = true)

/-- R146: the MCU-health monitor: below `VDDA_FAULT` toward Fault, above `VDDA_OK` toward Ok, `VDDA_DEB` net samples. -/
def Obligations.McuHealthMonitor : Prop :=
  ∀ s : State, ∃ t, exec .evAtick s = .next t ∧
    let v := Claims.average s.mem .vdda
    (s.pm.mcuCond = .ok →
      (t.pm.mcuCond, t.pm.mcuCnt) =
        if v < s.cfg.VDDA_FAULT ∧ s.cfg.VDDA_DEB ≤ min (s.pm.mcuCnt.toNat + 1) 65535 then (.fault, 0)
        else (.ok, BitVec.ofNat 16 (Claims.counted s.pm.mcuCnt.toNat (v < s.cfg.VDDA_FAULT)))) ∧
    (s.pm.mcuCond = .fault →
      (t.pm.mcuCond, t.pm.mcuCnt) =
        if s.cfg.VDDA_OK < v ∧ s.cfg.VDDA_DEB ≤ min (s.pm.mcuCnt.toNat + 1) 65535 then (.ok, 0)
        else (.fault, BitVec.ofNat 16 (Claims.counted s.pm.mcuCnt.toNat (s.cfg.VDDA_OK < v))))

/-- R147: the hardware over-current condition: raised from the latch only, returned after `HW_DEB` net samples of a filtered
current below `HWOC_RETURN`, re-arming the latch then. -/
def Obligations.HardwareOverCurrentMonitor : Prop :=
  ∀ s : State, ∃ t, exec .evAtick s = .next t ∧
    let low := Claims.filteredCurrent s.mem < s.cfg.HWOC_RETURN
    (s.pm.ocCond = .normal →
      (t.pm.ocCond, t.pm.ocCnt) = (if s.hwpend.getLsbD 3 = true then (.over, 0) else (.normal, s.pm.ocCnt)) ∧
      t.rearmPort.getLsbD 3 = false) ∧
    (s.pm.ocCond = .over →
      (t.pm.ocCond, t.pm.ocCnt) =
        (if low ∧ s.cfg.HW_DEB ≤ min (s.pm.ocCnt.toNat + 1) 65535 then (.normal, 0)
         else (.over, BitVec.ofNat 16 (Claims.counted s.pm.ocCnt.toNat low))) ∧
      (t.rearmPort.getLsbD 3 = true ↔ t.pm.ocCond = .normal ∧ s.hwpend.getLsbD 3 = true))

/-- R148: the hardware VDS condition: raised from the latch only, returned after `HW_DEB` net samples with the bridge output
disabled, re-arming the latch then. -/
def Obligations.HardwareVdsMonitor : Prop :=
  ∀ s : State, ∃ t, exec .evAtick s = .next t ∧
    (s.pm.vdsCond = .normal →
      (t.pm.vdsCond, t.pm.vdsCnt) = (if s.hwpend.getLsbD 4 = true then (.short, 0) else (.normal, s.pm.vdsCnt)) ∧
      t.rearmPort.getLsbD 4 = false) ∧
    (s.pm.vdsCond = .short →
      (t.pm.vdsCond, t.pm.vdsCnt) =
        (if s.mc.outEn = false ∧ s.cfg.HW_DEB ≤ min (s.pm.vdsCnt.toNat + 1) 65535 then (.normal, 0)
         else (.short, BitVec.ofNat 16 (Claims.counted s.pm.vdsCnt.toNat (s.mc.outEn = false)))) ∧
      (t.rearmPort.getLsbD 4 = true ↔ t.pm.vdsCond = .normal ∧ s.hwpend.getLsbD 4 = true))

/-- R142, R149: a latch bit is cleared exactly when the same bit of the port `rearm` is 1, and that only when the condition
the bit raised returns to Normal in this very tick: "never before". -/
def Obligations.RearmOnlyOnReturn : Prop :=
  ∀ s t : State, exec .evAtick s = .next t →
    (∀ b, b < 5 → t.hwpend.getLsbD b = (s.hwpend.getLsbD b && !t.rearmPort.getLsbD b)) ∧
    (∀ b, b < 5 → t.rearmPort.getLsbD b = true → s.hwpend.getLsbD b = true) ∧
    (t.rearmPort.getLsbD 0 = true → s.pm.vsCond = .over ∧ t.pm.vsCond = .normal) ∧
    (t.rearmPort.getLsbD 1 = true → s.pm.vsCond = .under ∧ t.pm.vsCond = .normal) ∧
    (t.rearmPort.getLsbD 2 = true → s.pm.tCond = .high ∧ t.pm.tCond = .normal) ∧
    (t.rearmPort.getLsbD 3 = true → s.pm.ocCond = .over ∧ t.pm.ocCond = .normal) ∧
    (t.rearmPort.getLsbD 4 = true → s.pm.vdsCond = .short ∧ t.pm.vdsCond = .normal)

/-- R142, R210: of the Motor Controller the application tick writes the duty only, and that only in Accelerating, a fixed
step up to the full-speed duty; it touches no sample, no angle and no Sensor Fusion register. -/
def Obligations.AtickRampsAndFrames : Prop :=
  ∀ s : State, ∃ t, exec .evAtick s = .next t ∧
    t = { s with pm := t.pm, hwpend := t.hwpend, mc := { s.mc with duty := t.mc.duty }, out := .rearm t.rearmPort } ∧
    t.mc.duty =
      if s.mc.mstate = .accelerating then BitVec.ofNat 16 (min (s.mc.duty.toNat + s.cfg.RAMP_STEP) s.cfg.DUTY_FULL)
      else s.mc.duty

/-! ### The motor tick -/

/-- R181: the first motor tick after reset enters Stopped, sets `MC.initStatus`, and does nothing else; once left, `Init`
comes back by a reset only. -/
def Obligations.FirstTickLeavesInit : Prop :=
  (∀ (i : Instr) (s t : State), i ≠ .evRst → exec i s = .next t → s.mc.mstate ≠ .init → t.mc.mstate ≠ .init) ∧
  ∀ s : State, s.mc.mstate = .init →
    exec .evMtick s = .next
      { s with mc := { s.mc with mstate := .stopped, initStatus := true, elapsed := 0, restore := false, restoreCnt := 0,
                                 outEn := false, duty := 0 },
               out := .none }

/-- R180, R44: what a motor tick may not write: any other sub-block's registers, the sample memory, `HWPEND`, the two angles
and the owner's request bits; it sets stall and fault flags and never clears one. -/
def Obligations.MotorTickFrame : Prop :=
  ∀ s : State, ∃ t, exec .evMtick s = .next t ∧
    t = { s with mc := { t.mc with targetAngle := s.mc.targetAngle, currentAngle := s.mc.currentAngle,
                                   haveTarget := s.mc.haveTarget, hardStop := s.mc.hardStop },
                 out := .none } ∧
    t.mc.initStatus = (s.mc.initStatus || decide (s.mc.mstate = .init)) ∧
    s.mc.stallFlags &&& ~~~t.mc.stallFlags = 0 ∧ s.mc.faultFlags &&& ~~~t.mc.faultFlags = 0

/-- R183: the motion observer, in every state but `Init`, enabled or not. -/
def Obligations.MotionObserver : Prop :=
  ∀ s : State, s.mc.mstate ≠ .init → ∃ t, exec .evMtick s = .next t ∧
    (s.cfg.MOTION_WIN ≤ s.mc.winCnt.toNat + 1 →
      t.mc.winCnt = 0 ∧ t.mc.refAngle = s.mc.currentAngle ∧
      t.mc.motionDelta.toNat = ((s.mc.currentAngle.toNat : Int) - (s.mc.refAngle.toNat : Int)).natAbs) ∧
    (s.mc.winCnt.toNat + 1 < s.cfg.MOTION_WIN →
      t.mc.winCnt = s.mc.winCnt + 1 ∧ t.mc.refAngle = s.mc.refAngle ∧ t.mc.motionDelta = s.mc.motionDelta)

/-- R190: the thresholds follow the supply reading on a tick that starts with the output off, and are frozen on one that
starts with it on. -/
def Obligations.ThresholdsLatchedWhileEnabled : Prop :=
  ∀ s : State, s.mc.mstate ≠ .init → ∃ t, exec .evMtick s = .next t ∧
    (s.mc.outEn = false →
      t.mc.thrHalf = BitVec.ofNat 16 (vlookup s.cfg.VTAB (Claims.average s.mem .vs)).half ∧
      t.mc.thrFull = BitVec.ofNat 16 (vlookup s.cfg.VTAB (Claims.average s.mem .vs)).full ∧
      t.mc.minDuty = BitVec.ofNat 16 (vlookup s.cfg.VTAB (Claims.average s.mem .vs)).minDuty) ∧
    (s.mc.outEn = true →
      t.mc.thrHalf = s.mc.thrHalf ∧ t.mc.thrFull = s.mc.thrFull ∧ t.mc.minDuty = s.mc.minDuty)

/-- R191: the lookup gives the row with the largest `vmin` at or below the reading, or the first row if there is none;
under `REFCFG` the four rows of the rule. -/
def Obligations.LookupPicksTheRow : Prop :=
  ∀ (r : VRow) (rows : List VRow) (v : Nat), (r :: rows).Pairwise (fun a b => a.vmin < b.vmin) →
    (r.vmin ≤ v →
      vlookup (r :: rows) v ∈ r :: rows ∧ (vlookup (r :: rows) v).vmin ≤ v ∧
      ∀ q ∈ r :: rows, q.vmin ≤ v → q.vmin ≤ (vlookup (r :: rows) v).vmin) ∧
    (v < r.vmin → vlookup (r :: rows) v = r) ∧
    vlookup refCfg.VTAB v =
      if v ≤ 999 then ⟨800, 300, 600, 300⟩ else if v ≤ 1199 then ⟨1000, 400, 800, 250⟩
      else if v ≤ 1399 then ⟨1200, 500, 1000, 200⟩ else ⟨1400, 600, 1200, 150⟩

/-- R184: the position-reached test of every tick but the first: within `OFF_HYST` the output is off, the position is marked
and the request is cleared; otherwise both marks stay. -/
def Obligations.PositionReachedTest : Prop :=
  ∀ s : State, s.mc.mstate ≠ .init → ∃ t, exec .evMtick s = .next t ∧
    (Claims.distance s ≤ s.cfg.OFF_HYST → t.mc.outEn = false ∧ t.mc.posReached = true ∧ t.mc.moveReq = false) ∧
    (s.cfg.OFF_HYST < Claims.distance s → t.mc.posReached = s.mc.posReached ∧ t.mc.moveReq = s.mc.moveReq)

/-- R193, R194, R195: the two stall detectors. They are active while the output is enabled past the mask; inactive they hold
their counters at 0. A flag is set exactly on an active tick whose own condition holds with the count at the trip. -/
def Obligations.StallDetectors : Prop :=
  ∀ s : State, s.mc.mstate ≠ .init → ∃ t, exec .evMtick s = .next t ∧
    let current := Claims.filteredCurrent s.mem
    let moved := t.mc.motionDelta.toNat
    let active := Claims.drivenAfterTest s ∧ s.cfg.STALL_MASK_TICKS ≤ s.mc.enTimer.toNat
    let slow := s.mc.thrHalf.toNat ≤ current ∧ s.cfg.MOTION_STOP_MAX < moved ∧ moved ≤ s.cfg.MOTION_LOW_MAX
    let stuck := s.mc.thrFull.toNat ≤ current ∧ moved ≤ s.cfg.MOTION_STOP_MAX
    (¬ active → t.mc.obstrCnt = 0 ∧ t.mc.stallCnt = 0 ∧ t.mc.stallFlags = s.mc.stallFlags) ∧
    (active →
      t.mc.obstrCnt.toNat = Claims.counted s.mc.obstrCnt.toNat slow ∧
      t.mc.stallCnt.toNat = Claims.counted s.mc.stallCnt.toNat stuck ∧
      (t.mc.stallFlags.getLsbD 0 = true ↔
        s.mc.stallFlags.getLsbD 0 = true ∨ (slow ∧ s.cfg.OBSTR_TRIP ≤ t.mc.obstrCnt.toNat)) ∧
      (t.mc.stallFlags.getLsbD 1 = true ↔
        s.mc.stallFlags.getLsbD 1 = true ∨ (stuck ∧ s.cfg.STALL_TRIP ≤ t.mc.stallCnt.toNat)))

/-- R196 to R199: the three electrical-fault detectors, each with its own enable bit and counter; a disabled class holds its
counter at 0 and never sets its flag. -/
def Obligations.FaultDetectors : Prop :=
  ∀ s : State, s.mc.mstate ≠ .init → ∃ t, exec .evMtick s = .next t ∧
    let dry := Claims.filteredCurrent s.mem ≤ s.cfg.OPEN_I_MAX
    let shorted := s.hwpend.getLsbD 4 = true
    let high := s.cfg.OC_CEILING ≤ Claims.instantCurrent s.mem s.sf.widx
    let openOn := s.cfg.FAULT_EN.getLsbD 0 = true ∧ Claims.drivenAfterTest s
    let shortOn := s.cfg.FAULT_EN.getLsbD 1 = true
    let ocOn := s.cfg.FAULT_EN.getLsbD 2 = true ∧ Claims.drivenAfterTest s
    (¬ openOn → t.mc.openCnt = 0 ∧ t.mc.faultFlags.getLsbD 0 = s.mc.faultFlags.getLsbD 0) ∧
    (openOn → t.mc.openCnt.toNat = Claims.counted s.mc.openCnt.toNat dry ∧
      (t.mc.faultFlags.getLsbD 0 = true ↔
        s.mc.faultFlags.getLsbD 0 = true ∨ (dry ∧ s.cfg.OPEN_TRIP ≤ t.mc.openCnt.toNat))) ∧
    (¬ shortOn → t.mc.shortCnt = 0 ∧ t.mc.faultFlags.getLsbD 1 = s.mc.faultFlags.getLsbD 1) ∧
    (shortOn → t.mc.shortCnt.toNat = Claims.counted s.mc.shortCnt.toNat shorted ∧
      (t.mc.faultFlags.getLsbD 1 = true ↔
        s.mc.faultFlags.getLsbD 1 = true ∨ (shorted ∧ s.cfg.SHORT_TRIP ≤ t.mc.shortCnt.toNat))) ∧
    (¬ ocOn → t.mc.ocCnt = 0 ∧ t.mc.faultFlags.getLsbD 2 = s.mc.faultFlags.getLsbD 2) ∧
    (ocOn → t.mc.ocCnt.toNat = Claims.counted s.mc.ocCnt.toNat high ∧
      (t.mc.faultFlags.getLsbD 2 = true ↔
        s.mc.faultFlags.getLsbD 2 = true ∨ (high ∧ s.cfg.OC_TRIP ≤ t.mc.ocCnt.toNat)))

/-- R181, R200 to R209, R212: from every state a motor tick takes exactly the transition the rules give, Fault before Stalled
before the state's own exits, and never a pair outside the table of R212. -/
def Obligations.TransitionRelation : Prop :=
  ∀ s : State, ∃ t, exec .evMtick s = .next t ∧ Claims.NextMotorState s t t.mc.mstate ∧
    (t.mc.mstate = s.mc.mstate ∨ (s.mc.mstate, t.mc.mstate) ∈ Claims.transitionPairs)

/-- R186, with R185, R263, R264: but for reset, the motor state changes on a motor tick only, and what entering a state
writes. Paused, Stalled and Fault leave the duty as it was. Running and Decelerating leave the output enable as the
position-reached test of the tick left it (R27, R184). -/
def Obligations.EntryActions : Prop :=
  ∀ (i : Instr) (s t : State), i ≠ .evRst → exec i s = .next t → t.mc.mstate ≠ s.mc.mstate →
    i = .evMtick ∧ t.mc.elapsed = 0 ∧ t.mc.restore = false ∧ t.mc.restoreCnt = 0 ∧
    (t.mc.mstate = .stopped → t.mc.outEn = false ∧ t.mc.duty = 0) ∧
    (t.mc.mstate = .paused ∨ t.mc.mstate = .stalled ∨ t.mc.mstate = .fault →
      t.mc.outEn = false ∧ t.mc.duty = s.mc.duty) ∧
    (t.mc.mstate = .accelerating →
      t.mc.dir = (if 0 < Claims.travel s then .fwd else .rev) ∧ t.mc.duty = BitVec.ofNat 16 s.cfg.START_DUTY ∧
      t.mc.outEn = true ∧ t.mc.enTimer = 0) ∧
    (t.mc.mstate = .running → t.mc.duty = BitVec.ofNat 16 s.cfg.DUTY_FULL) ∧
    (t.mc.mstate = .running ∨ t.mc.mstate = .decelerating → (t.mc.outEn = true ↔ Claims.drivenAfterTest s)) ∧
    (t.mc.mstate = .decelerating → t.mc.dutySaved = s.mc.duty ∧ t.mc.duty = s.mc.duty) ∧
    (t.mc.mstate ≠ .accelerating → t.mc.dir = s.mc.dir) ∧ (t.mc.mstate ≠ .decelerating → t.mc.dutySaved = s.mc.dutySaved)

/-- R205, R206: a motor tick that stays in Decelerating counts the restore phase, starts it when the observer reports
stopped, or lowers the duty in proportion to the remaining distance, floored at the latched `minDuty`. -/
def Obligations.SoftStopDuty : Prop :=
  ∀ s t : State, exec .evMtick s = .next t → s.mc.mstate = .decelerating → t.mc.mstate = .decelerating →
    t.mc.dutySaved = s.mc.dutySaved ∧ t.mc.dir = s.mc.dir ∧
    (s.mc.restore = true → t.mc.restore = true ∧ t.mc.restoreCnt = s.mc.restoreCnt + 1 ∧ t.mc.duty = s.mc.duty) ∧
    (s.mc.restore = false → t.mc.motionDelta.toNat ≤ s.cfg.MOTION_STOP_MAX →
      t.mc.restore = true ∧ t.mc.restoreCnt = 0 ∧ t.mc.duty = s.mc.dutySaved) ∧
    (s.mc.restore = false → s.cfg.MOTION_STOP_MAX < t.mc.motionDelta.toNat →
      t.mc.restore = false ∧ t.mc.restoreCnt = s.mc.restoreCnt ∧
      t.mc.duty.toNat =
        max t.mc.minDuty.toNat (min s.mc.duty.toNat (s.cfg.DUTY_FULL * Claims.distance s / s.cfg.DECEL_WINDOW)))

/-- R31 with R184, R186 and the exits R200 to R209: a motor tick that stays in its state lowers the output enable by the
position-reached test only; in a state other than Decelerating it writes no other drive register: the duty, the direction,
the saved duty and the restore phase stay. -/
def Obligations.DriveHeldOutsideRamps : Prop :=
  ∀ s t : State, exec .evMtick s = .next t → s.mc.mstate ≠ .init → t.mc.mstate = s.mc.mstate →
    (t.mc.outEn = true ↔ Claims.drivenAfterTest s) ∧
    (s.mc.mstate ≠ .decelerating →
      t.mc.duty = s.mc.duty ∧ t.mc.dir = s.mc.dir ∧ t.mc.dutySaved = s.mc.dutySaved ∧ t.mc.restore = s.mc.restore ∧
      t.mc.restoreCnt = s.mc.restoreCnt)

/-- R187, R188: the two timers at the end of a motor tick. -/
def Obligations.TickTimers : Prop :=
  ∀ s : State, s.mc.mstate ≠ .init → ∃ t, exec .evMtick s = .next t ∧
    (t.mc.mstate ≠ s.mc.mstate → t.mc.elapsed = 0) ∧
    (t.mc.mstate = s.mc.mstate → t.mc.elapsed.toNat = min (s.mc.elapsed.toNat + 1) 65535) ∧
    (t.mc.mstate = .accelerating ∧ s.mc.mstate ≠ .accelerating → t.mc.enTimer = 0) ∧
    (¬ (t.mc.mstate = .accelerating ∧ s.mc.mstate ≠ .accelerating) →
      t.mc.enTimer.toNat = if t.mc.outEn = true then min (s.mc.enTimer.toNat + 1) 65535 else 0)

/-- R265 (d): when Fault is left with a stall flag still set, the machine passes through Stopped, output off, for one tick and
is Stalled on the next. -/
def Obligations.StallSurvivesFault : Prop :=
  ∀ s : State, s.mc.mstate = .fault → s.mc.faultFlags = 0 → s.mc.stallFlags ≠ 0 → s.mc.outEn = false →
    s.hwpend.getLsbD 4 = false →
    ∃ t u, exec .evMtick s = .next t ∧ t.mc.mstate = .stopped ∧ t.mc.outEn = false ∧
      exec .evMtick t = .next u ∧ u.mc.mstate = .stalled ∧ u.mc.outEn = false

/-- R304: a short flag cleared while the latch is still pending is set again on the next tick, and Fault is not left. -/
def Obligations.EarlyShortClearUndone : Prop :=
  ∀ s : State, s.mc.mstate = .fault → s.cfg.FAULT_EN.getLsbD 1 = true → s.hwpend.getLsbD 4 = true →
    s.cfg.SHORT_TRIP ≤ min (s.mc.shortCnt.toNat + 1) 65535 →
    ∃ t u, exec (.clrFault 2) s = .next t ∧ t.mc.faultFlags.getLsbD 1 = false ∧
      exec .evMtick t = .next u ∧ u.mc.faultFlags.getLsbD 1 = true ∧ u.mc.mstate = .fault

/-- R311, R202: clearing the last stall flag with the request kept, no hard stop and no short pending restarts the move: one
tick to Stopped, one to Accelerating. -/
def Obligations.MoveRestartsAfterClear : Prop :=
  ∀ s : State, s.mc.mstate = .stalled → s.mc.faultFlags = 0 → s.mc.outEn = false → s.hwpend.getLsbD 4 = false →
    s.mc.moveReq = true → s.mc.hardStop = false → s.cfg.OFF_HYST < Claims.distance s →
    ∃ t u v, exec (.clrStall 3) s = .next t ∧ exec .evMtick t = .next u ∧ u.mc.mstate = .stopped ∧
      exec .evMtick u = .next v ∧ v.mc.mstate = .accelerating ∧ v.mc.outEn = true

/-! ### The whole machine -/

/-- R75, the spec's own inference: every command is idempotent in its effect on the state: issued twice in a row it leaves,
but for the response, the state of issuing it once. -/
def Obligations.CommandsIdempotent : Prop :=
  ∀ (i : Instr) (s : State), Claims.isCommand i = true →
    ∃ t u, exec i s = .next t ∧ exec i t = .next u ∧ { u with out := t.out } = t

/-- R44, R79, R280: each context writes only its own. Interrupt events write samples or set latch bits; the application tick
writes the monitor, clears latch bits and ramps the duty; the motor tick writes the Motor Controller, and neither the two
angles nor the owner's bits; a command writes the zero-point, the angles, the request bits, and clears flags. -/
def Obligations.ContextsWriteOnlyTheirOwn : Prop :=
  ∀ (i : Instr) (s t : State), exec i s = .next t → t.cfg = s.cfg ∧ t.inq = s.inq ∧
    match i with
    | .evRst => t.sf = {} ∧ t.pm = {} ∧ t.mc = {} ∧ t.hwpend = 0 ∧ t.mem = []
    | .evAdc _ => t = { s with mem := t.mem, sf := { s.sf with widx := t.sf.widx }, out := t.out }
    | .evHwprot _ => t = { s with hwpend := t.hwpend, out := t.out } ∧ s.hwpend &&& ~~~t.hwpend = 0
    | .evMtick =>
      t = { s with mc := { t.mc with targetAngle := s.mc.targetAngle, currentAngle := s.mc.currentAngle,
                                     haveTarget := s.mc.haveTarget, hardStop := s.mc.hardStop }, out := t.out } ∧
      s.mc.stallFlags &&& ~~~t.mc.stallFlags = 0 ∧ s.mc.faultFlags &&& ~~~t.mc.faultFlags = 0
    | .evAtick =>
      t = { s with pm := t.pm, hwpend := t.hwpend, mc := { s.mc with duty := t.mc.duty }, out := t.out } ∧
      t.hwpend &&& ~~~s.hwpend = 0
    | _ =>
      t = { s with sf := { s.sf with sensorOffset := t.sf.sensorOffset },
                   mc := { s.mc with targetAngle := t.mc.targetAngle, haveTarget := t.mc.haveTarget,
                                     currentAngle := t.mc.currentAngle, hardStop := t.mc.hardStop,
                                     moveReq := t.mc.moveReq, posReached := t.mc.posReached,
                                     stallFlags := t.mc.stallFlags, faultFlags := t.mc.faultFlags },
                   out := t.out } ∧
      t.mc.stallFlags &&& ~~~s.mc.stallFlags = 0 ∧ t.mc.faultFlags &&& ~~~s.mc.faultFlags = 0

/-- R30, R184, R213 (a): but for reset, `MC.moveReq` is cleared by reaching the target and by nothing else. -/
def Obligations.RequestClearedOnlyByReaching : Prop :=
  ∀ (i : Instr) (s t : State), i ≠ .evRst → exec i s = .next t → s.mc.moveReq = true → t.mc.moveReq = false →
    i = .evMtick ∧ s.mc.mstate ≠ .init ∧ Claims.distance s ≤ s.cfg.OFF_HYST ∧ t.mc.posReached = true

/-- R45, R20, with the canonical sample memory: what makes a state sound is kept by every step, from every sound state. -/
def Obligations.StepKeepsSound : Prop :=
  ∀ s t : State, s.sound = true → step s = .next t → t.sound = true

/-- R43, R45: the state after reset is sound. The configuration that stands in it is the model's choice (entry 2). -/
def Obligations.ResetIsSound : Prop := State.reset.sound = true
end

