-- ==== Sys2Proof/Laws/Flags.lean ====
section
/-! SUPPORT. The shared arithmetic as numbers and bits: counters, latch and flag bits, detectors, differences of angles. -/

namespace Sys2Proof.Machine

/-! ### Counters (R15, R28, R32) -/

theorem toWord_toNat (v : Nat) (h : v ≤ 65535) : (toWord v).toNat = v := by
  simp only [toWord, BitVec.toNat_ofNat]; omega

theorem toWord_toNat_self (w : Word) : toWord w.toNat = w := by simp [toWord]

theorem toAngle_toNat (v : Nat) (h : v < 4096) : (toAngle v).toNat = v := by
  simp only [toAngle, BitVec.toNat_ofNat]; omega

theorem satInc_toNat (t : Word) : (satInc t).toNat = min (t.toNat + 1) 65535 := by
  rw [satInc, toWord_toNat _ (by simp only [sat16]; omega), sat16]

theorem updown_toNat (cnt : Word) (c : Bool) :
    (updown cnt c).toNat = if c = true then min (cnt.toNat + 1) 65535 else cnt.toNat - 1 := by
  have h := cnt.isLt
  cases c
  · simp only [updown, Bool.false_eq_true, if_false]
    rw [toWord_toNat _ (by omega)]
  · simp only [updown, if_true]
    rw [toWord_toNat _ (by simp only [sat16]; omega), sat16]

theorem updown_eq (cnt : Word) (c : Bool) :
    updown cnt c = BitVec.ofNat 16 (if c = true then min (cnt.toNat + 1) 65535 else cnt.toNat - 1) := by
  rw [← updown_toNat]; simp

/-- Counting never rises by more than one. -/
theorem updown_le (cnt : Word) (c : Bool) : (updown cnt c).toNat ≤ cnt.toNat + 1 := by
  rw [updown_toNat]; split <;> omega

/-- A tick that does not trip leaves a counter that was below its trip count below it. -/
theorem updown_lt_of_not_trip (cnt : Word) (c : Bool) (trip : Nat) (h : cnt.toNat < trip)
    (hn : ¬ (c = true ∧ trip ≤ (updown cnt c).toNat)) : (updown cnt c).toNat < trip := by
  cases c
  · rw [updown_toNat]; simp only [Bool.false_eq_true, if_false]; omega
  · simpa using hn

/-! ### Differences of angles (R14, R182) -/

theorem adiff_lt (a b : Angle) (ha : a.toNat < 3600) (hb : b.toNat < 3600) : adiff a b < 3600 := by
  simp only [adiff]; omega

theorem adiff_toAngle (a b : Angle) :
    (toAngle (adiff a b)).toNat = ((a.toNat : Int) - (b.toNat : Int)).natAbs := by
  have ha := a.isLt
  have hb := b.isLt
  rw [toAngle_toNat _ (by simp only [adiff]; omega), adiff]

/-! ### Bits of the masks (R36, R37, R38) -/

@[simp] theorem hasBit_latchOV (m : Latch) : hasBit m latchOV = m.getLsbD 0 := by revert m; decide
@[simp] theorem hasBit_latchUV (m : Latch) : hasBit m latchUV = m.getLsbD 1 := by revert m; decide
@[simp] theorem hasBit_latchOT (m : Latch) : hasBit m latchOT = m.getLsbD 2 := by revert m; decide
@[simp] theorem hasBit_latchOC (m : Latch) : hasBit m latchOC = m.getLsbD 3 := by revert m; decide
@[simp] theorem hasBit_latchVDS (m : Latch) : hasBit m latchVDS = m.getLsbD 4 := by revert m; decide
@[simp] theorem hasBit_faultOpenPhase (m : BitVec 3) : hasBit m faultOpenPhase = m.getLsbD 0 := by revert m; decide
@[simp] theorem hasBit_faultShort (m : BitVec 3) : hasBit m faultShort = m.getLsbD 1 := by revert m; decide
@[simp] theorem hasBit_faultOverCurrent (m : BitVec 3) : hasBit m faultOverCurrent = m.getLsbD 2 := by revert m; decide

/-- A bit of a mask after a conditional set. -/
@[simp] theorem getLsbD_setIf {w : Nat} (m bit : BitVec w) (c : Bool) (i : Nat) :
    (setIf m bit c).getLsbD i = (m.getLsbD i || (c && bit.getLsbD i)) := by
  cases c <;> simp [setIf]

/-- A bit of a conditional re-arm pulse. -/
@[simp] theorem getLsbD_pulseIf (bit : Latch) (c : Bool) (i : Nat) :
    (pulseIf bit c).getLsbD i = (c && bit.getLsbD i) := by
  cases c <;> simp [pulseIf]

/-- Setting a bit clears none. -/
theorem setIf_keeps {w : Nat} (m bit : BitVec w) (c : Bool) : m &&& ~~~(setIf m bit c) = 0 := by
  apply BitVec.eq_of_getLsbD_eq
  intro i hi
  simp only [BitVec.getLsbD_and, BitVec.getLsbD_not, getLsbD_setIf, hi, decide_true, Bool.true_and]
  cases m.getLsbD i <;> simp

/-! ### Detectors (R35) -/

@[simp] theorem detect_disabled (c : Bool) (trip : Nat) (cnt : Word) : detect false c trip cnt = (0, false) := rfl

@[simp] theorem detect_enabled (c : Bool) (trip : Nat) (cnt : Word) :
    detect true c trip cnt = (updown cnt c, c && decide (trip ≤ (updown cnt c).toNat)) := rfl

/-- A detector that is not enabled sets nothing. -/
theorem detect_trips_enabled {enabled c : Bool} {trip : Nat} {cnt : Word} (h : (detect enabled c trip cnt).2 = true) :
    enabled = true ∧ c = true := by
  cases enabled <;> simp_all [detect]

end Sys2Proof.Machine
end

