-- ==== Sys2Proof/Laws/Config.lean ====
section
/-! SUPPORT. What a well-formed configuration gives (R9), and bounds on the readings (R121, R122). -/

namespace Sys2Proof

theorem vminRising_iff_pairwise (rows : List VRow) :
    vminRising rows = true ↔ rows.Pairwise (fun r r' => r.vmin < r'.vmin) := by
  induction rows with
  | nil => simp [vminRising]
  | cons r rows ih =>
    cases rows with
    | nil => simp [vminRising]
    | cons r' rows =>
      simp only [vminRising, Bool.and_eq_true, decide_eq_true_eq, ih, List.pairwise_cons]
      constructor
      · rintro ⟨h, h1, h2⟩
        refine ⟨fun a ha => ?_, h1, h2⟩
        obtain rfl | ha := List.mem_cons.1 ha
        · exact h
        · exact lt_trans h (h1 a ha)
      · rintro ⟨h, h1, h2⟩
        exact ⟨h r' (by simp), h1, h2⟩

/-- The trip counts of the monitors are at least 1 (R7). -/
theorem wf_monitor_counts (c : Cfg) (h : c.wf = true) :
    1 ≤ c.VS_DEB ∧ 1 ≤ c.IGN_DEB ∧ 1 ≤ c.TEMP_DEB ∧ 1 ≤ c.VDDA_DEB ∧ 1 ≤ c.HW_DEB := by
  simp only [Cfg.wf, Cfg.wfPM, isCount, Bool.and_eq_true, decide_eq_true_eq] at h
  omega

/-- The counts, windows and duties of the Motor Controller (R7, R9). -/
theorem wf_motor_counts (c : Cfg) (h : c.wf = true) :
    1 ≤ c.MOTION_WIN ∧ 1 ≤ c.DECEL_WINDOW ∧ 1 ≤ c.DUTY_FULL ∧ 1 ≤ c.PAUSE_TICKS ∧ 1 ≤ c.RESTORE_TICKS ∧
    c.START_DUTY ≤ c.DUTY_FULL ∧ c.DUTY_FULL ≤ 65535 ∧ 1 ≤ c.RAMP_STEP ∧ c.VTAB ≠ [] := by
  simp only [Cfg.wf, Cfg.wfMC, isCount, isTenths, isU16, Bool.and_eq_true, decide_eq_true_eq, Bool.not_eq_true',
    List.isEmpty_eq_false_iff] at h
  obtain ⟨_, ⟨⟨h1, _⟩, h2⟩, _⟩ := h
  refine ⟨?_, ?_, ?_, ?_, ?_, ?_, ?_, ?_, h2⟩ <;> omega

namespace Machine

/-! ### Readings (R121, R122) -/

/-- An average of 16-bit samples is a 16-bit number. -/
theorem avg_le (m : Memory) (c : Channel) : avg m c ≤ 65535 := by
  have h := fun i => (m.readWord (wordAddr c i)).isLt
  have h0 := h 0
  have h1 := h 1
  have h2 := h 2
  have h3 := h 3
  have h4 := h 4
  have h5 := h 5
  have h6 := h 6
  have h7 := h 7
  simp only [avg, Memory.window, allSlots, List.map_cons, List.map_nil, List.sum_cons, List.sum_nil]
  omega

theorem iavg_le (m : Memory) : iavg m ≤ 65535 := max_le (avg_le m .cur1) (avg_le m .cur2)

theorem iinst_le (m : Memory) (w : BitVec 3) : iinst m w ≤ 65535 := by
  have h1 := (m.readWord (wordAddr .cur1 (w - 1))).isLt
  have h2 := (m.readWord (wordAddr .cur2 (w - 1))).isLt
  simp only [iinst, last]
  omega

end Machine

end Sys2Proof
end

