-- ==== Sys2Proof/Laws/Decode.lean ====
section
/-! SUPPORT. The fields of a command word, the decoder on a word given by its fields, and the order of the strobes
(R90, R95, R96, R11). -/

namespace Sys2Proof

/-! ### The fields of a command word (R90) -/

theorem opcodeOf_append (op : BitVec 8) (x : BitVec 16) : opcodeOf (op ++ x : BitVec (8 + 16)) = op := by
  apply BitVec.eq_of_getLsbD_eq
  intro i hi
  have h1 : ¬ 16 + i < 16 := by omega
  have h2 : 16 + i - 16 = i := by omega
  simp only [opcodeOf, BitVec.getLsbD_extractLsb', BitVec.getLsbD_append, hi, h1, h2, decide_true, Bool.true_and, if_false]

theorem operandOf_append (op : BitVec 8) (x : BitVec 16) : operandOf (op ++ x : BitVec (8 + 16)) = x := by
  apply BitVec.eq_of_getLsbD_eq
  intro i hi
  have h1 : 0 + i < 16 := by omega
  have h2 : 0 + i = i := by omega
  simp only [operandOf, BitVec.getLsbD_extractLsb', BitVec.getLsbD_append, hi, h2, decide_true, Bool.true_and, if_true]

/-- A command word is its opcode followed by its operand. -/
theorem opcode_append_operand (w : BitVec 24) : (opcodeOf w ++ operandOf w : BitVec (8 + 16)) = w := by
  apply BitVec.eq_of_getLsbD_eq
  intro i hi
  have hi' : i < 24 := hi
  rw [BitVec.getLsbD_append]
  by_cases h : i < 16
  · simp [operandOf, h]
  · have h2 : i - 16 < 8 := by omega
    have h3 : 16 + (i - 16) = i := by omega
    simp only [opcodeOf, BitVec.getLsbD_extractLsb', h, if_false, h2, decide_true, Bool.true_and, h3]

/-- The decoder on a word given by its two fields (R95). -/
theorem decodeCommand_append (op : BitVec 8) (x : BitVec 16) :
    decodeCommand (op ++ x : BitVec (8 + 16)) =
      match rowOf op with
      | none => .error .badOp
      | some r => if r.format.legal x then .ok (r.make x) else .error .badArg := by
  cases h : rowOf op <;> simp only [decodeCommand, opcodeOf_append, operandOf_append, h]

/-- The row found for an opcode is one of the table's and has that opcode. -/
theorem rowOf_eq_some {op : BitVec 8} {r : CommandRow} (h : rowOf op = some r) :
    r ∈ commandTable ∧ r.opcode = op :=
  ⟨List.mem_of_find?_eq_some h, by simpa using List.find?_some h⟩

/-! ### Legal operands (R90) -/

@[simp] theorem legal_n (x : Word) : Format.n.legal x = decide (x = 0#16) := by
  rw [Bool.eq_iff_iff]
  simp only [Format.legal, decide_eq_true_eq, beq_iff_eq]
  exact ⟨fun h => BitVec.eq_of_toNat_eq h, fun h => by subst h; rfl⟩

@[simp] theorem legal_a (x : Word) : Format.a.legal x = decide (x.toNat < 3600) := rfl
@[simp] theorem legal_m2 (x : Word) : Format.m2.legal x = decide (x.toNat ≤ 3) := rfl
@[simp] theorem legal_m3 (x : Word) : Format.m3.legal x = decide (x.toNat ≤ 7) := rfl

/-! ### The strobes (R11, R91) -/

theorem firstStrobe_commandInputs (w : BitVec 24) : firstStrobe (commandInputs w) = some .cmd := by
  simp [firstStrobe, strobeOrder, isAsserted, commandInputs, List.find?]

/-- Ports that present one command give that word to the command decoder. -/
theorem decode_commandInputs (w : BitVec 24) : decode (commandInputs w) = some (decodeCommand w) := by
  rw [decode, firstStrobe_commandInputs]; rfl

theorem isAsserted_bit (p : Inputs) :
    isAsserted p .rst = p.ev.getLsbD 4 ∧ isAsserted p .hwprot = p.ev.getLsbD 0 ∧
    isAsserted p .adc = p.ev.getLsbD 1 ∧ isAsserted p .mtick = p.ev.getLsbD 2 ∧
    isAsserted p .atick = p.ev.getLsbD 3 ∧ isAsserted p .cmd = p.cmdValid := by
  refine ⟨?_, ?_, ?_, ?_, ?_, rfl⟩ <;> simp only [isAsserted, strobeBit] <;> generalize p.ev = v <;> revert v <;> decide

/-- The first asserted strobe, written out (R11). -/
theorem firstStrobe_eq (p : Inputs) :
    firstStrobe p =
      if isAsserted p .rst then some .rst else if isAsserted p .hwprot then some .hwprot
      else if isAsserted p .adc then some .adc else if isAsserted p .mtick then some .mtick
      else if isAsserted p .atick then some .atick else if isAsserted p .cmd then some .cmd else none := by
  simp only [firstStrobe, strobeOrder, List.find?]
  cases isAsserted p .rst <;> cases isAsserted p .hwprot <;> cases isAsserted p .adc <;>
    cases isAsserted p .mtick <;> cases isAsserted p .atick <;> cases isAsserted p .cmd <;> rfl

/-- The ports are quiet exactly when nothing is asserted. -/
theorem firstStrobe_eq_none (p : Inputs) : firstStrobe p = none ↔ ∀ e, isAsserted p e = false := by
  simp only [firstStrobe, List.find?_eq_none, strobeOrder]
  constructor
  · intro h e
    have := h e (by cases e <;> simp)
    simpa using this
  · intro h e _
    simp [h e]

end Sys2Proof
end

