-- ==== Sys2Proof/Laws/State.lean ====
section
/-! SUPPORT. One lemma per field per named update of the state: the responses, a refused command, the ports. -/

namespace Sys2Proof.Machine

/-! ### `State.respond` (R93) -/

@[simp] theorem respond_cfg (data : Word) (s : State) : (s.respond data).cfg = s.cfg := rfl
@[simp] theorem respond_sf (data : Word) (s : State) : (s.respond data).sf = s.sf := rfl
@[simp] theorem respond_pm (data : Word) (s : State) : (s.respond data).pm = s.pm := rfl
@[simp] theorem respond_hwpend (data : Word) (s : State) : (s.respond data).hwpend = s.hwpend := rfl
@[simp] theorem respond_mc (data : Word) (s : State) : (s.respond data).mc = s.mc := rfl
@[simp] theorem respond_mem (data : Word) (s : State) : (s.respond data).mem = s.mem := rfl
@[simp] theorem respond_inq (data : Word) (s : State) : (s.respond data).inq = s.inq := rfl
@[simp] theorem respond_out (data : Word) (s : State) : (s.respond data).out = .response .ok data := rfl

/-! ### `State.raise` (R260): the status and data 0, nothing else -/

@[simp] theorem raise_cfg (e : CmdError) (s : State) : (s.raise e).cfg = s.cfg := by cases e <;> rfl
@[simp] theorem raise_sf (e : CmdError) (s : State) : (s.raise e).sf = s.sf := by cases e <;> rfl
@[simp] theorem raise_pm (e : CmdError) (s : State) : (s.raise e).pm = s.pm := by cases e <;> rfl
@[simp] theorem raise_hwpend (e : CmdError) (s : State) : (s.raise e).hwpend = s.hwpend := by cases e <;> rfl
@[simp] theorem raise_mc (e : CmdError) (s : State) : (s.raise e).mc = s.mc := by cases e <;> rfl
@[simp] theorem raise_mem (e : CmdError) (s : State) : (s.raise e).mem = s.mem := by cases e <;> rfl
@[simp] theorem raise_inq (e : CmdError) (s : State) : (s.raise e).inq = s.inq := by cases e <;> rfl
@[simp] theorem raise_badOp_out (s : State) : (s.raise .badOp).out = .response .badOp 0 := rfl
@[simp] theorem raise_badArg_out (s : State) : (s.raise .badArg).out = .response .badArg 0 := rfl

/-! ### `State.present`: one more cycle on the ports -/

@[simp] theorem present_cfg (p : Inputs) (s : State) : (s.present p).cfg = s.cfg := rfl
@[simp] theorem present_sf (p : Inputs) (s : State) : (s.present p).sf = s.sf := rfl
@[simp] theorem present_pm (p : Inputs) (s : State) : (s.present p).pm = s.pm := rfl
@[simp] theorem present_hwpend (p : Inputs) (s : State) : (s.present p).hwpend = s.hwpend := rfl
@[simp] theorem present_mc (p : Inputs) (s : State) : (s.present p).mc = s.mc := rfl
@[simp] theorem present_mem (p : Inputs) (s : State) : (s.present p).mem = s.mem := rfl
@[simp] theorem present_out (p : Inputs) (s : State) : (s.present p).out = s.out := rfl
@[simp] theorem present_inq (p : Inputs) (s : State) : (s.present p).inq = p :: s.inq := rfl

/-! ### `MC.commitTarget` (R242) -/

@[simp] theorem commitTarget_mstate (angle : Word) (mc : MC) : (mc.commitTarget angle).mstate = mc.mstate := rfl
@[simp] theorem commitTarget_initStatus (angle : Word) (mc : MC) : (mc.commitTarget angle).initStatus = mc.initStatus := rfl
@[simp] theorem commitTarget_elapsed (angle : Word) (mc : MC) : (mc.commitTarget angle).elapsed = mc.elapsed := rfl
@[simp] theorem commitTarget_targetAngle (angle : Word) (mc : MC) : (mc.commitTarget angle).targetAngle = toAngle angle.toNat := rfl
@[simp] theorem commitTarget_haveTarget (angle : Word) (mc : MC) : (mc.commitTarget angle).haveTarget = true := rfl
@[simp] theorem commitTarget_currentAngle (angle : Word) (mc : MC) : (mc.commitTarget angle).currentAngle = mc.currentAngle := rfl
@[simp] theorem commitTarget_hardStop (angle : Word) (mc : MC) : (mc.commitTarget angle).hardStop = mc.hardStop := rfl
@[simp] theorem commitTarget_moveReq (angle : Word) (mc : MC) : (mc.commitTarget angle).moveReq = true := rfl
@[simp] theorem commitTarget_posReached (angle : Word) (mc : MC) : (mc.commitTarget angle).posReached = false := rfl
@[simp] theorem commitTarget_dir (angle : Word) (mc : MC) : (mc.commitTarget angle).dir = mc.dir := rfl
@[simp] theorem commitTarget_duty (angle : Word) (mc : MC) : (mc.commitTarget angle).duty = mc.duty := rfl
@[simp] theorem commitTarget_outEn (angle : Word) (mc : MC) : (mc.commitTarget angle).outEn = mc.outEn := rfl
@[simp] theorem commitTarget_dutySaved (angle : Word) (mc : MC) : (mc.commitTarget angle).dutySaved = mc.dutySaved := rfl
@[simp] theorem commitTarget_restore (angle : Word) (mc : MC) : (mc.commitTarget angle).restore = mc.restore := rfl
@[simp] theorem commitTarget_restoreCnt (angle : Word) (mc : MC) : (mc.commitTarget angle).restoreCnt = mc.restoreCnt := rfl
@[simp] theorem commitTarget_enTimer (angle : Word) (mc : MC) : (mc.commitTarget angle).enTimer = mc.enTimer := rfl
@[simp] theorem commitTarget_winCnt (angle : Word) (mc : MC) : (mc.commitTarget angle).winCnt = mc.winCnt := rfl
@[simp] theorem commitTarget_refAngle (angle : Word) (mc : MC) : (mc.commitTarget angle).refAngle = mc.refAngle := rfl
@[simp] theorem commitTarget_motionDelta (angle : Word) (mc : MC) : (mc.commitTarget angle).motionDelta = mc.motionDelta := rfl
@[simp] theorem commitTarget_thrHalf (angle : Word) (mc : MC) : (mc.commitTarget angle).thrHalf = mc.thrHalf := rfl
@[simp] theorem commitTarget_thrFull (angle : Word) (mc : MC) : (mc.commitTarget angle).thrFull = mc.thrFull := rfl
@[simp] theorem commitTarget_minDuty (angle : Word) (mc : MC) : (mc.commitTarget angle).minDuty = mc.minDuty := rfl
@[simp] theorem commitTarget_obstrCnt (angle : Word) (mc : MC) : (mc.commitTarget angle).obstrCnt = mc.obstrCnt := rfl
@[simp] theorem commitTarget_stallCnt (angle : Word) (mc : MC) : (mc.commitTarget angle).stallCnt = mc.stallCnt := rfl
@[simp] theorem commitTarget_openCnt (angle : Word) (mc : MC) : (mc.commitTarget angle).openCnt = mc.openCnt := rfl
@[simp] theorem commitTarget_shortCnt (angle : Word) (mc : MC) : (mc.commitTarget angle).shortCnt = mc.shortCnt := rfl
@[simp] theorem commitTarget_ocCnt (angle : Word) (mc : MC) : (mc.commitTarget angle).ocCnt = mc.ocCnt := rfl
@[simp] theorem commitTarget_stallFlags (angle : Word) (mc : MC) : (mc.commitTarget angle).stallFlags = mc.stallFlags := rfl
@[simp] theorem commitTarget_faultFlags (angle : Word) (mc : MC) : (mc.commitTarget angle).faultFlags = mc.faultFlags := rfl

/-! ### The level output ports (R211) -/

@[simp] theorem outEn_eq (s : State) : s.outEn = s.mc.outEn := rfl
@[simp] theorem outDuty_eq (s : State) : s.outDuty = s.mc.duty := rfl
theorem outDir_fwd (s : State) (h : s.mc.dir = .fwd) : s.outDir = s.cfg.POLE_POL := by
  rw [State.outDir, h]; exact Bool.false_xor _
theorem outDir_rev (s : State) (h : s.mc.dir = .rev) : s.outDir = !s.cfg.POLE_POL := by
  rw [State.outDir, h]; exact Bool.true_xor _

end Sys2Proof.Machine
end

