-- ==== Sys2Proof/Laws/Exec.lean ====
section
/-! SUPPORT. What a step and an instruction answer, said once: every instruction answers a next state, with the stimulus
and the configuration untouched; every step answers as its fetch says. -/

namespace Sys2Proof.Machine

/-! ### The operand check (R95, R130, R242 to R248) -/

theorem withOperand_legal {f : Format} {x : Word} (h : f.legal x = true) (s run : State) :
    withOperand f x s run = .next run := by simp [withOperand, h]

theorem withOperand_illegal {f : Format} {x : Word} (h : f.legal x = false) (s run : State) :
    withOperand f x s run = .next (s.raise .badArg) := by simp [withOperand, h]

/-- The operand check always answers a next state: the command's, or the refusal's. -/
theorem withOperand_cases (f : Format) (x : Word) (s run : State) :
    (f.legal x = true ∧ withOperand f x s run = .next run) ∨
    (f.legal x = false ∧ withOperand f x s run = .next (s.raise .badArg)) := by
  cases h : f.legal x
  · exact .inr ⟨rfl, withOperand_illegal h s run⟩
  · exact .inl ⟨rfl, withOperand_legal h s run⟩

/-! ### The events -/

theorem exec_evHwprot (m : Latch) (s : State) :
    exec (.evHwprot m) s = .next { s with hwpend := s.hwpend ||| m, out := .none } := rfl

theorem exec_evAdc (raw : Samples) (s : State) :
    exec (.evAdc raw) s =
      .next { s with mem := s.mem.writeSamples s.sf.widx raw, sf := { s.sf with widx := s.sf.widx + 1 }, out := .none } :=
  rfl

theorem exec_evMtick (s : State) :
    exec .evMtick s =
      .next { s with
        mc := s.mc.tick s.cfg (avg s.mem .vs) (iavg s.mem) (iinst s.mem s.sf.widx) s.hwpend, out := .none } := rfl

theorem exec_evAtick (s : State) :
    exec .evAtick s =
      .next { s with
        pm := (pmTick s.cfg s.mem s.hwpend s.mc.outEn s.pm).1,
        hwpend := s.hwpend &&& ~~~(pmTick s.cfg s.mem s.hwpend s.mc.outEn s.pm).2,
        mc := s.mc.ramp s.cfg,
        out := .rearm (pmTick s.cfg s.mem s.hwpend s.mc.outEn s.pm).2 } := rfl

/-! ### Every instruction, every step -/

/-- Every instruction answers a next state, and leaves the configuration and the stimulus alone. -/
theorem exec_next (i : Instr) (s : State) : ∃ t, exec i s = .next t ∧ t.cfg = s.cfg ∧ t.inq = s.inq := by
  cases i
  all_goals first | exact ⟨_, rfl, rfl, rfl⟩ | skip
  all_goals
    simp only [exec, execSetTarget, execSetCurpos, execClrStall, execClrFault, execSetSofs, withOperand]
    split
    · first | exact ⟨_, rfl, rfl, rfl⟩ | (split <;> exact ⟨_, rfl, rfl, rfl⟩)
    · exact ⟨_, rfl, rfl, rfl⟩

/-- What the ports give a step, from the first cycle of the stimulus. -/
theorem fetch_cases (s : State) :
    (s.inq = [] ∧ fetch s = .idle) ∨
    (∃ p rest, s.inq = p :: rest ∧ firstStrobe p = none ∧ fetch s = .quiet { s with inq := rest }) ∨
    (∃ p rest e i, s.inq = p :: rest ∧ firstStrobe p = some e ∧ decodeStrobe p e = .ok i ∧
      fetch s = .run i { s with inq := restInputs p e rest }) ∨
    (∃ p rest e err, s.inq = p :: rest ∧ firstStrobe p = some e ∧ decodeStrobe p e = .error err ∧
      fetch s = .refuse err { s with inq := restInputs p e rest }) := by
  unfold fetch
  cases hq : s.inq with
  | nil => exact .inl ⟨rfl, rfl⟩
  | cons p rest =>
    cases hs : firstStrobe p with
    | none => exact .inr (.inl ⟨p, rest, rfl, hs, by simp [hs]⟩)
    | some e =>
      cases hd : decodeStrobe p e with
      | ok i => exact .inr (.inr (.inl ⟨p, rest, e, i, rfl, hs, hd, by simp [hs, hd]⟩))
      | error err => exact .inr (.inr (.inr ⟨p, rest, e, err, rfl, hs, hd, by simp [hs, hd]⟩))

/-- Everything a step under a well-formed configuration can do. -/
theorem step_cases (s : State) (h : s.cfg.wf = true) :
    (s.inq = [] ∧ step s = .next s) ∨
    (∃ q, step s = .next { s with inq := q }) ∨
    (∃ i q, step s = exec i { s with inq := q }) ∨
    (∃ err q, step s = .next (State.raise err { s with inq := q })) := by
  simp only [step, h, if_true]
  obtain ⟨h1, h2⟩ | ⟨p, rest, _, _, h2⟩ | ⟨p, rest, e, i, _, _, _, h2⟩ | ⟨p, rest, e, err, _, _, _, h2⟩ := fetch_cases s
  · exact .inl ⟨h1, by rw [h2]⟩
  · exact .inr (.inl ⟨rest, by rw [h2]⟩)
  · exact .inr (.inr (.inl ⟨i, restInputs p e rest, by rw [h2]⟩))
  · exact .inr (.inr (.inr ⟨err, restInputs p e rest, by rw [h2]⟩))

/-- A configuration that is not well formed is refused (R9). -/
theorem step_refused (s : State) (h : s.cfg.wf = false) : step s = .refused .illFormedConfig := by simp [step, h]

end Sys2Proof.Machine
end

