-- ==== Sys2Proof/Laws/Memory.lean ====
section
/-! SUPPORT. The sample memory: a read after a write, the frame of a write, and the canonical form (R72, R120). -/

namespace Sys2Proof.Machine

/-! ### Bytes -/

@[simp] theorem readByte_nil (a : Nat) : Memory.readByte [] a = 0#8 := rfl

theorem readByte_of_wfFrom_lt (m : Memory) : ∀ lo a, Memory.wfFrom lo m = true → a < lo → m.readByte a = 0#8 := by
  induction m with
  | nil => intros; rfl
  | cons kv m ih =>
    obtain ⟨k, v⟩ := kv
    intro lo a h hlt
    simp only [Memory.wfFrom, Bool.and_eq_true, decide_eq_true_eq, bne_iff_ne] at h
    have hk : k ≠ a := by omega
    simp only [Memory.readByte, hk, if_false]
    exact ih (k + 1) a h.2 (by omega)

theorem readByte_writeByte (m : Memory) (a b : Nat) (v : Byte) :
    ∀ lo, Memory.wfFrom lo m = true → (m.writeByte a v).readByte b = if b = a then v else m.readByte b := by
  induction m with
  | nil =>
    intro lo _
    by_cases hb : b = a
    · by_cases hv : v = 0#8 <;> simp [Memory.writeByte, Memory.readByte, hv, hb]
    · have : a ≠ b := fun e => hb e.symm
      by_cases hv : v = 0#8 <;> simp [Memory.writeByte, Memory.readByte, hv, hb, this]
  | cons kw m ih =>
    obtain ⟨k, w⟩ := kw
    intro lo h
    have h' := h
    simp only [Memory.wfFrom, Bool.and_eq_true, decide_eq_true_eq, bne_iff_ne] at h'
    have hlow := readByte_of_wfFrom_lt m (k + 1) a h'.2
    simp only [Memory.writeByte]
    split
    · rename_i hka
      simp only [Memory.readByte, ih (k + 1) h'.2]
      by_cases hkb : k = b
      · subst hkb; simp; omega
      · simp [hkb]
    · split
      · rename_i _ hka
        subst hka
        by_cases hv : v = 0#8
        · subst hv
          by_cases hb : b = k
          · subst hb; simpa using hlow (by omega)
          · have : k ≠ b := fun e => hb e.symm
            simp [Memory.readByte, hb, this]
        · by_cases hb : b = k
          · subst hb; simp [Memory.readByte, hv]
          · have : k ≠ b := fun e => hb e.symm
            simp [Memory.readByte, hb, this, hv]
      · rename_i h1 h2
        have h0 := hlow (by omega)
        by_cases hb : b = a
        · subst hb
          by_cases hv : v = 0#8
          · simp [Memory.readByte, hv, h0, h2]
          · simp [Memory.readByte, hv]
        · have : a ≠ b := fun e => hb e.symm
          by_cases hv : v = 0#8 <;> simp [Memory.readByte, hv, hb, this]

theorem wfFrom_mono (m : Memory) {lo lo' : Nat} (h : lo' ≤ lo) (hw : Memory.wfFrom lo m = true) :
    Memory.wfFrom lo' m = true := by
  cases m with
  | nil => rfl
  | cons kv m =>
    simp only [Memory.wfFrom, Bool.and_eq_true, decide_eq_true_eq] at *
    exact ⟨⟨⟨by omega, hw.1.1.2⟩, hw.1.2⟩, hw.2⟩

theorem writeByte_wfFrom (m : Memory) (a : Nat) (v : Byte) (ha : a < 160) :
    ∀ lo, lo ≤ a → Memory.wfFrom lo m = true → Memory.wfFrom lo (m.writeByte a v) = true := by
  induction m with
  | nil =>
    intro lo hlo _
    by_cases hv : v = 0#8 <;> simp [Memory.writeByte, Memory.wfFrom, hv, hlo, ha]
  | cons kw m ih =>
    obtain ⟨k, w⟩ := kw
    intro lo hlo h
    have h' := h
    simp only [Memory.wfFrom, Bool.and_eq_true, decide_eq_true_eq, bne_iff_ne] at h'
    obtain ⟨⟨⟨hk, hk2⟩, hw⟩, hm⟩ := h'
    simp only [Memory.writeByte]
    split
    · rename_i hka
      simp only [Memory.wfFrom, Bool.and_eq_true, decide_eq_true_eq, bne_iff_ne]
      exact ⟨⟨⟨hk, hk2⟩, hw⟩, ih (k + 1) (by omega) hm⟩
    · split
      · rename_i _ hka
        subst hka
        by_cases hv : v = 0#8
        · simp only [hv, if_true]
          exact wfFrom_mono m (by omega) hm
        · simp [Memory.wfFrom, hv, hk, hk2, hm]
      · by_cases hv : v = 0#8
        · simp only [hv, if_true]; exact h
        · simp only [hv, if_false, Memory.wfFrom, Bool.and_eq_true, decide_eq_true_eq, bne_iff_ne, ne_eq,
            not_false_eq_true, and_true]
          exact ⟨⟨hlo, ha⟩, ⟨⟨by omega, hk2⟩, hw⟩, hm⟩

/-- A byte written keeps the canonical form. -/
theorem writeByte_wf (m : Memory) (a : Nat) (v : Byte) (ha : a < 160) (h : m.wf = true) :
    (m.writeByte a v).wf = true := writeByte_wfFrom m a v ha 0 (Nat.zero_le a) h

/-- The frame of a byte write, on a canonical memory. -/
theorem readByte_writeByte_wf (m : Memory) (a b : Nat) (v : Byte) (h : m.wf = true) :
    (m.writeByte a v).readByte b = if b = a then v else m.readByte b := readByte_writeByte m a b v 0 h

/-- Canonical memories with equal bytes are equal data. -/
theorem ext_of_wfFrom : ∀ (m m' : Memory) (lo : Nat), Memory.wfFrom lo m = true → Memory.wfFrom lo m' = true →
    (∀ a, m.readByte a = m'.readByte a) → m = m'
  | [], [], _, _, _, _ => rfl
  | [], (k, v) :: m', lo, _, h', hr => by
    simp only [Memory.wfFrom, Bool.and_eq_true, bne_iff_ne] at h'
    have := hr k
    simp [Memory.readByte] at this
    exact absurd this.symm h'.1.2
  | (k, v) :: m, [], lo, h, _, hr => by
    simp only [Memory.wfFrom, Bool.and_eq_true, bne_iff_ne] at h
    have := hr k
    simp [Memory.readByte] at this
    exact absurd this h.1.2
  | (k, v) :: m, (k', v') :: m', lo, h, h', hr => by
    simp only [Memory.wfFrom, Bool.and_eq_true, decide_eq_true_eq, bne_iff_ne] at h h'
    have e1 := hr k
    have e2 := hr k'
    have hkk : k = k' := by
      rcases Nat.lt_trichotomy k k' with hl | he | hl
      · have hz := readByte_of_wfFrom_lt m' (k' + 1) k h'.2 (by omega)
        have hne : ¬ k' = k := by omega
        simp only [Memory.readByte, if_true, hne, if_false, hz] at e1
        exact absurd e1 h.1.2
      · exact he
      · have hz := readByte_of_wfFrom_lt m (k + 1) k' h.2 (by omega)
        have hne : ¬ k = k' := by omega
        simp only [Memory.readByte, if_true, hne, if_false, hz] at e2
        exact absurd e2.symm h'.1.2
    subst hkk
    have hv : v = v' := by simpa [Memory.readByte] using e1
    subst hv
    have : m = m' := by
      refine ext_of_wfFrom m m' (k + 1) h.2 h'.2 (fun a => ?_)
      by_cases ha : k = a
      · subst ha
        rw [readByte_of_wfFrom_lt m (k + 1) k h.2 (by omega), readByte_of_wfFrom_lt m' (k + 1) k h'.2 (by omega)]
      · have := hr a
        simpa [Memory.readByte, ha] using this
    rw [this]

/-- Equal contents are equal lists. -/
theorem memory_ext {m m' : Memory} (h : m.wf = true) (h' : m'.wf = true) (hr : ∀ a, m.readByte a = m'.readByte a) :
    m = m' := ext_of_wfFrom m m' 0 h h' hr

/-! ### Words (R72) -/

@[simp] theorem readWord_nil (a : Fin 80) : Memory.readWord [] a = 0#16 := by simp [Memory.readWord]

theorem writeWord_wf (m : Memory) (a : Fin 80) (v : Word) (h : m.wf = true) : (m.writeWord a v).wf = true := by
  have := a.isLt
  exact writeByte_wf _ _ _ (by omega) (writeByte_wf _ _ _ (by omega) h)

theorem readByte_writeWord (m : Memory) (a : Fin 80) (v : Word) (k : Nat) (h : m.wf = true) :
    (m.writeWord a v).readByte k =
      if k = 2 * a.val + 1 then v.extractLsb' 0 8 else if k = 2 * a.val then v.extractLsb' 8 8 else m.readByte k := by
  have := a.isLt
  rw [Memory.writeWord, readByte_writeByte_wf _ _ _ _ (writeByte_wf _ _ _ (by omega) h), readByte_writeByte_wf _ _ _ _ h]

theorem word_of_bytes (v : Word) : (v.extractLsb' 8 8 ++ v.extractLsb' 0 8 : BitVec (8 + 8)) = v := by
  ext i hi
  simp only [BitVec.getElem_append, BitVec.getElem_extractLsb']
  split
  · simp [BitVec.getLsbD_eq_getElem (by omega : i < 16)]
  · rename_i h8
    have e : 8 + (i - 8) = i := by omega
    rw [e, BitVec.getLsbD_eq_getElem (by omega : i < 16)]

/-- Read after write, and the frame of a write, for whole words (R72). -/
theorem readWord_writeWord (m : Memory) (a b : Fin 80) (v : Word) (h : m.wf = true) :
    (m.writeWord a v).readWord b = if b = a then v else m.readWord b := by
  have hiff : b = a ↔ b.val = a.val := Fin.ext_iff
  by_cases hab : b = a
  · subst hab
    simp only [Memory.readWord, readByte_writeWord _ _ _ _ h]
    have e1 : ¬ (2 * b.val = 2 * b.val + 1) := by omega
    simp only [e1, if_false, if_true]
    exact word_of_bytes v
  · have hv : b.val ≠ a.val := fun e => hab (hiff.mpr e)
    simp only [Memory.readWord, readByte_writeWord _ _ _ _ h, hab, if_false]
    have e1 : ¬ (2 * b.val = 2 * a.val + 1) := by omega
    have e2 : ¬ (2 * b.val = 2 * a.val) := by omega
    have e3 : ¬ (2 * b.val + 1 = 2 * a.val + 1) := by omega
    have e4 : ¬ (2 * b.val + 1 = 2 * a.val) := by omega
    simp only [e1, e2, e3, e4, if_false]

/-! ### Slots of channels (R23, R120) -/

theorem wordAddr_inj (c c' : Channel) (i i' : BitVec 3) : wordAddr c i = wordAddr c' i' ↔ c = c' ∧ i = i' := by
  constructor
  · intro h
    have hv : 8 * (chanNum c).val + i.toNat = 8 * (chanNum c').val + i'.toNat := congrArg Fin.val h
    have h1 := i.isLt
    have h2 := i'.isLt
    have hi : i.toNat = i'.toNat := by omega
    have hc : (chanNum c).val = (chanNum c').val := by omega
    refine ⟨?_, BitVec.eq_of_toNat_eq hi⟩
    cases c <;> cases c' <;> first | rfl | (simp [chanNum] at hc)
  · rintro ⟨rfl, rfl⟩; rfl

theorem foldl_writeWord_wf (cs : List Channel) (w : BitVec 3) (raw : Samples) :
    ∀ m : Memory, m.wf = true → (cs.foldl (fun m c => m.writeWord (wordAddr c w) (sampleOf raw c)) m).wf = true := by
  induction cs with
  | nil => intro m h; exact h
  | cons c cs ih => intro m h; exact ih _ (writeWord_wf m _ _ h)

theorem foldl_writeWord_readWord (cs : List Channel) (w : BitVec 3) (raw : Samples) (c : Channel) (i : BitVec 3) :
    ∀ m : Memory, m.wf = true →
      (cs.foldl (fun m c => m.writeWord (wordAddr c w) (sampleOf raw c)) m).readWord (wordAddr c i) =
        if c ∈ cs ∧ i = w then sampleOf raw c else m.readWord (wordAddr c i) := by
  induction cs with
  | nil => intro m _; simp
  | cons c' cs ih =>
    intro m h
    rw [List.foldl_cons, ih _ (writeWord_wf m _ _ h), readWord_writeWord _ _ _ _ h]
    by_cases hc : c = c' <;> by_cases hi : i = w <;> by_cases hm : c ∈ cs <;>
      simp [wordAddr_inj, hc, hi, hm]

theorem mem_allChannels (c : Channel) : c ∈ allChannels := by cases c <;> decide

/-- `EV_ADC` keeps the canonical form of the sample memory. -/
theorem writeSamples_wf (m : Memory) (w : BitVec 3) (raw : Samples) (h : m.wf = true) :
    (m.writeSamples w raw).wf = true := foldl_writeWord_wf allChannels w raw m h

/-- What `EV_ADC` leaves in every slot (R120). -/
theorem readWord_writeSamples (m : Memory) (w : BitVec 3) (raw : Samples) (c : Channel) (i : BitVec 3)
    (h : m.wf = true) :
    (m.writeSamples w raw).readWord (wordAddr c i) = if i = w then sampleOf raw c else m.readWord (wordAddr c i) := by
  rw [Memory.writeSamples, foldl_writeWord_readWord _ _ _ _ _ _ h]
  simp [mem_allChannels]

theorem foldl_writeWord_readByte (cs : List Channel) (w : BitVec 3) (raw : Samples) (k : Nat)
    (hk : ∀ c, k ≠ 2 * (wordAddr c w).val ∧ k ≠ 2 * (wordAddr c w).val + 1) :
    ∀ m : Memory, m.wf = true →
      (cs.foldl (fun m c => m.writeWord (wordAddr c w) (sampleOf raw c)) m).readByte k = m.readByte k := by
  induction cs with
  | nil => intro m _; rfl
  | cons c cs ih =>
    intro m h
    rw [List.foldl_cons, ih _ (writeWord_wf m _ _ h), readByte_writeWord _ _ _ _ h]
    simp [hk c]

/-- The frame of `EV_ADC` in bytes: every byte outside the ten words written. -/
theorem readByte_writeSamples (m : Memory) (w : BitVec 3) (raw : Samples) (k : Nat) (h : m.wf = true)
    (hk : ∀ c, k ≠ 2 * (wordAddr c w).val ∧ k ≠ 2 * (wordAddr c w).val + 1) :
    (m.writeSamples w raw).readByte k = m.readByte k := foldl_writeWord_readByte allChannels w raw k hk m h

end Sys2Proof.Machine
end

