-- ==== Sys2Proof/Laws/Monitor.lean ====
section
/-! SUPPORT. The monitors of the application tick: what `MON` answers, the frame of each monitor, and the six of them
taken apart (R141 to R149). -/

namespace Sys2Proof.Machine

/-! ### The debounced monitor (R141) -/

/-- Everything `MON` can do: trip, or count. -/
theorem mon_cases (cond : Side) (cnt : Word) (v lowStop lowRet highRet highStop trip : Nat) :
    let c := monCrosses cond v lowStop lowRet highRet highStop
    (c = true ∧ trip ≤ (updown cnt c).toNat ∧
      mon cond cnt v lowStop lowRet highRet highStop trip = (monTarget cond v lowStop, 0)) ∨
    (¬ (c = true ∧ trip ≤ (updown cnt c).toNat) ∧
      mon cond cnt v lowStop lowRet highRet highStop trip = (cond, updown cnt c)) := by
  simp only [mon]
  split
  · rename_i h; exact .inl ⟨h.1, h.2, rfl⟩
  · rename_i h; exact .inr ⟨h, rfl⟩

/-- `MON` keeps a counter below its trip count (R45). -/
theorem mon_counter_lt (cond : Side) (cnt : Word) (v lowStop lowRet highRet highStop trip : Nat)
    (h : cnt.toNat < trip) : (mon cond cnt v lowStop lowRet highRet highStop trip).2.toNat < trip := by
  obtain ⟨_, _, e⟩ | ⟨hn, e⟩ := mon_cases cond cnt v lowStop lowRet highRet highStop trip
  · rw [e]; show 0 < trip; omega
  · rw [e]; exact updown_lt_of_not_trip cnt _ trip h hn

/-- From Normal, a monitor with no high side never answers the high side (R144). -/
theorem mon_no_high (cond : Side) (cnt : Word) (v lowStop lowRet trip : Nat) (hv : v ≤ 65536) (hc : cond ≠ .high) :
    (mon cond cnt v lowStop lowRet 0 65536 trip).1 ≠ .high := by
  obtain ⟨h1, _, e⟩ | ⟨_, e⟩ := mon_cases cond cnt v lowStop lowRet 0 65536 trip
  · rw [e]
    cases cond
    · simp only [monCrosses, Bool.or_eq_true, decide_eq_true_eq] at h1
      simp only [monTarget]
      split <;> simp
      omega
    · simp [monTarget]
    · simp [monTarget]
  · rw [e]; exact hc

@[simp] theorem vsSide_sideVs (x : Side) : vsSide (sideVs x) = x := by cases x <;> rfl
@[simp] theorem tSide_sideT (x : Side) : tSide (sideT x) = x := by cases x <;> rfl
theorem ignSide_sideIgn (x : Side)
    (h : x ≠ .high) : ignSide (sideIgn x) = x := by cases x <;> simp_all [ignSide, sideIgn]
theorem ignSide_ne_high (c : IgnCond) : ignSide c ≠ .high := by cases c <;> simp [ignSide]

/-! ### Frames: each monitor writes its own two registers -/

@[simp] theorem pmSupply_ignCond (cfg : Cfg) (v : Nat) (hw : Latch) (pm : PM) :
    (pmSupply cfg v hw pm).1.ignCond = pm.ignCond := by
  simp only [pmSupply]
  repeat' split
  all_goals rfl
@[simp] theorem pmSupply_ignCnt (cfg : Cfg) (v : Nat) (hw : Latch) (pm : PM) :
    (pmSupply cfg v hw pm).1.ignCnt = pm.ignCnt := by
  simp only [pmSupply]
  repeat' split
  all_goals rfl
@[simp] theorem pmSupply_tCond (cfg : Cfg) (v : Nat) (hw : Latch) (pm : PM) :
    (pmSupply cfg v hw pm).1.tCond = pm.tCond := by
  simp only [pmSupply]
  repeat' split
  all_goals rfl
@[simp] theorem pmSupply_tCnt (cfg : Cfg) (v : Nat) (hw : Latch) (pm : PM) :
    (pmSupply cfg v hw pm).1.tCnt = pm.tCnt := by
  simp only [pmSupply]
  repeat' split
  all_goals rfl
@[simp] theorem pmSupply_mcuCond (cfg : Cfg) (v : Nat) (hw : Latch) (pm : PM) :
    (pmSupply cfg v hw pm).1.mcuCond = pm.mcuCond := by
  simp only [pmSupply]
  repeat' split
  all_goals rfl
@[simp] theorem pmSupply_mcuCnt (cfg : Cfg) (v : Nat) (hw : Latch) (pm : PM) :
    (pmSupply cfg v hw pm).1.mcuCnt = pm.mcuCnt := by
  simp only [pmSupply]
  repeat' split
  all_goals rfl
@[simp] theorem pmSupply_ocCond (cfg : Cfg) (v : Nat) (hw : Latch) (pm : PM) :
    (pmSupply cfg v hw pm).1.ocCond = pm.ocCond := by
  simp only [pmSupply]
  repeat' split
  all_goals rfl
@[simp] theorem pmSupply_ocCnt (cfg : Cfg) (v : Nat) (hw : Latch) (pm : PM) :
    (pmSupply cfg v hw pm).1.ocCnt = pm.ocCnt := by
  simp only [pmSupply]
  repeat' split
  all_goals rfl
@[simp] theorem pmSupply_vdsCond (cfg : Cfg) (v : Nat) (hw : Latch) (pm : PM) :
    (pmSupply cfg v hw pm).1.vdsCond = pm.vdsCond := by
  simp only [pmSupply]
  repeat' split
  all_goals rfl
@[simp] theorem pmSupply_vdsCnt (cfg : Cfg) (v : Nat) (hw : Latch) (pm : PM) :
    (pmSupply cfg v hw pm).1.vdsCnt = pm.vdsCnt := by
  simp only [pmSupply]
  repeat' split
  all_goals rfl

/-- `pmSupply` reads no register but its own two. -/
theorem pmSupply_congr (cfg : Cfg) (v : Nat) (hw : Latch) (pm pm' : PM)
    (h : pm'.vsCond = pm.vsCond) (h' : pm'.vsCnt = pm.vsCnt) :
    (pmSupply cfg v hw pm').1.vsCond = (pmSupply cfg v hw pm).1.vsCond ∧
    (pmSupply cfg v hw pm').1.vsCnt = (pmSupply cfg v hw pm).1.vsCnt := by
  simp only [pmSupply, h, h']
  repeat' split
  all_goals simp_all

theorem pmSupply_congr_rearm (cfg : Cfg) (v : Nat) (hw : Latch) (pm pm' : PM)
    (h : pm'.vsCond = pm.vsCond) (h' : pm'.vsCnt = pm.vsCnt) :
    (pmSupply cfg v hw pm').2 = (pmSupply cfg v hw pm).2 := by
  simp only [pmSupply, h, h']
  repeat' split
  all_goals simp_all

@[simp] theorem pmIgnition_vsCond (cfg : Cfg) (v : Nat) (pm : PM) : (pmIgnition cfg v pm).vsCond = pm.vsCond := rfl
@[simp] theorem pmIgnition_vsCnt (cfg : Cfg) (v : Nat) (pm : PM) : (pmIgnition cfg v pm).vsCnt = pm.vsCnt := rfl
@[simp] theorem pmIgnition_tCond (cfg : Cfg) (v : Nat) (pm : PM) : (pmIgnition cfg v pm).tCond = pm.tCond := rfl
@[simp] theorem pmIgnition_tCnt (cfg : Cfg) (v : Nat) (pm : PM) : (pmIgnition cfg v pm).tCnt = pm.tCnt := rfl
@[simp] theorem pmIgnition_mcuCond (cfg : Cfg) (v : Nat) (pm : PM) : (pmIgnition cfg v pm).mcuCond = pm.mcuCond := rfl
@[simp] theorem pmIgnition_mcuCnt (cfg : Cfg) (v : Nat) (pm : PM) : (pmIgnition cfg v pm).mcuCnt = pm.mcuCnt := rfl
@[simp] theorem pmIgnition_ocCond (cfg : Cfg) (v : Nat) (pm : PM) : (pmIgnition cfg v pm).ocCond = pm.ocCond := rfl
@[simp] theorem pmIgnition_ocCnt (cfg : Cfg) (v : Nat) (pm : PM) : (pmIgnition cfg v pm).ocCnt = pm.ocCnt := rfl
@[simp] theorem pmIgnition_vdsCond (cfg : Cfg) (v : Nat) (pm : PM) : (pmIgnition cfg v pm).vdsCond = pm.vdsCond := rfl
@[simp] theorem pmIgnition_vdsCnt (cfg : Cfg) (v : Nat) (pm : PM) : (pmIgnition cfg v pm).vdsCnt = pm.vdsCnt := rfl

/-- `pmIgnition` reads no register but its own two. -/
theorem pmIgnition_congr (cfg : Cfg) (v : Nat) (pm pm' : PM)
    (h : pm'.ignCond = pm.ignCond) (h' : pm'.ignCnt = pm.ignCnt) :
    (pmIgnition cfg v pm').ignCond = (pmIgnition cfg v pm).ignCond ∧
    (pmIgnition cfg v pm').ignCnt = (pmIgnition cfg v pm).ignCnt := by
  simp only [pmIgnition, h, h']
  all_goals simp_all

@[simp] theorem pmTemperature_vsCond (cfg : Cfg) (v : Nat) (hw : Latch) (pm : PM) :
    (pmTemperature cfg v hw pm).1.vsCond = pm.vsCond := by
  simp only [pmTemperature]
  repeat' split
  all_goals rfl
@[simp] theorem pmTemperature_vsCnt (cfg : Cfg) (v : Nat) (hw : Latch) (pm : PM) :
    (pmTemperature cfg v hw pm).1.vsCnt = pm.vsCnt := by
  simp only [pmTemperature]
  repeat' split
  all_goals rfl
@[simp] theorem pmTemperature_ignCond (cfg : Cfg) (v : Nat) (hw : Latch) (pm : PM) :
    (pmTemperature cfg v hw pm).1.ignCond = pm.ignCond := by
  simp only [pmTemperature]
  repeat' split
  all_goals rfl
@[simp] theorem pmTemperature_ignCnt (cfg : Cfg) (v : Nat) (hw : Latch) (pm : PM) :
    (pmTemperature cfg v hw pm).1.ignCnt = pm.ignCnt := by
  simp only [pmTemperature]
  repeat' split
  all_goals rfl
@[simp] theorem pmTemperature_mcuCond (cfg : Cfg) (v : Nat) (hw : Latch) (pm : PM) :
    (pmTemperature cfg v hw pm).1.mcuCond = pm.mcuCond := by
  simp only [pmTemperature]
  repeat' split
  all_goals rfl
@[simp] theorem pmTemperature_mcuCnt (cfg : Cfg) (v : Nat) (hw : Latch) (pm : PM) :
    (pmTemperature cfg v hw pm).1.mcuCnt = pm.mcuCnt := by
  simp only [pmTemperature]
  repeat' split
  all_goals rfl
@[simp] theorem pmTemperature_ocCond (cfg : Cfg) (v : Nat) (hw : Latch) (pm : PM) :
    (pmTemperature cfg v hw pm).1.ocCond = pm.ocCond := by
  simp only [pmTemperature]
  repeat' split
  all_goals rfl
@[simp] theorem pmTemperature_ocCnt (cfg : Cfg) (v : Nat) (hw : Latch) (pm : PM) :
    (pmTemperature cfg v hw pm).1.ocCnt = pm.ocCnt := by
  simp only [pmTemperature]
  repeat' split
  all_goals rfl
@[simp] theorem pmTemperature_vdsCond (cfg : Cfg) (v : Nat) (hw : Latch) (pm : PM) :
    (pmTemperature cfg v hw pm).1.vdsCond = pm.vdsCond := by
  simp only [pmTemperature]
  repeat' split
  all_goals rfl
@[simp] theorem pmTemperature_vdsCnt (cfg : Cfg) (v : Nat) (hw : Latch) (pm : PM) :
    (pmTemperature cfg v hw pm).1.vdsCnt = pm.vdsCnt := by
  simp only [pmTemperature]
  repeat' split
  all_goals rfl

/-- `pmTemperature` reads no register but its own two. -/
theorem pmTemperature_congr (cfg : Cfg) (v : Nat) (hw : Latch) (pm pm' : PM)
    (h : pm'.tCond = pm.tCond) (h' : pm'.tCnt = pm.tCnt) :
    (pmTemperature cfg v hw pm').1.tCond = (pmTemperature cfg v hw pm).1.tCond ∧
    (pmTemperature cfg v hw pm').1.tCnt = (pmTemperature cfg v hw pm).1.tCnt := by
  simp only [pmTemperature, h, h']
  repeat' split
  all_goals simp_all

theorem pmTemperature_congr_rearm (cfg : Cfg) (v : Nat) (hw : Latch) (pm pm' : PM)
    (h : pm'.tCond = pm.tCond) (h' : pm'.tCnt = pm.tCnt) :
    (pmTemperature cfg v hw pm').2 = (pmTemperature cfg v hw pm).2 := by
  simp only [pmTemperature, h, h']
  repeat' split
  all_goals simp_all

@[simp] theorem pmMcuHealth_vsCond (cfg : Cfg) (v : Nat) (pm : PM) : (pmMcuHealth cfg v pm).vsCond = pm.vsCond := by
  simp only [pmMcuHealth]
  repeat' split
  all_goals rfl
@[simp] theorem pmMcuHealth_vsCnt (cfg : Cfg) (v : Nat) (pm : PM) : (pmMcuHealth cfg v pm).vsCnt = pm.vsCnt := by
  simp only [pmMcuHealth]
  repeat' split
  all_goals rfl
@[simp] theorem pmMcuHealth_ignCond (cfg : Cfg) (v : Nat) (pm : PM) :
    (pmMcuHealth cfg v pm).ignCond = pm.ignCond := by
  simp only [pmMcuHealth]
  repeat' split
  all_goals rfl
@[simp] theorem pmMcuHealth_ignCnt (cfg : Cfg) (v : Nat) (pm : PM) : (pmMcuHealth cfg v pm).ignCnt = pm.ignCnt := by
  simp only [pmMcuHealth]
  repeat' split
  all_goals rfl
@[simp] theorem pmMcuHealth_tCond (cfg : Cfg) (v : Nat) (pm : PM) : (pmMcuHealth cfg v pm).tCond = pm.tCond := by
  simp only [pmMcuHealth]
  repeat' split
  all_goals rfl
@[simp] theorem pmMcuHealth_tCnt (cfg : Cfg) (v : Nat) (pm : PM) : (pmMcuHealth cfg v pm).tCnt = pm.tCnt := by
  simp only [pmMcuHealth]
  repeat' split
  all_goals rfl
@[simp] theorem pmMcuHealth_ocCond (cfg : Cfg) (v : Nat) (pm : PM) : (pmMcuHealth cfg v pm).ocCond = pm.ocCond := by
  simp only [pmMcuHealth]
  repeat' split
  all_goals rfl
@[simp] theorem pmMcuHealth_ocCnt (cfg : Cfg) (v : Nat) (pm : PM) : (pmMcuHealth cfg v pm).ocCnt = pm.ocCnt := by
  simp only [pmMcuHealth]
  repeat' split
  all_goals rfl
@[simp] theorem pmMcuHealth_vdsCond (cfg : Cfg) (v : Nat) (pm : PM) :
    (pmMcuHealth cfg v pm).vdsCond = pm.vdsCond := by
  simp only [pmMcuHealth]
  repeat' split
  all_goals rfl
@[simp] theorem pmMcuHealth_vdsCnt (cfg : Cfg) (v : Nat) (pm : PM) : (pmMcuHealth cfg v pm).vdsCnt = pm.vdsCnt := by
  simp only [pmMcuHealth]
  repeat' split
  all_goals rfl

/-- `pmMcuHealth` reads no register but its own two. -/
theorem pmMcuHealth_congr (cfg : Cfg) (v : Nat) (pm pm' : PM)
    (h : pm'.mcuCond = pm.mcuCond) (h' : pm'.mcuCnt = pm.mcuCnt) :
    (pmMcuHealth cfg v pm').mcuCond = (pmMcuHealth cfg v pm).mcuCond ∧
    (pmMcuHealth cfg v pm').mcuCnt = (pmMcuHealth cfg v pm).mcuCnt := by
  simp only [pmMcuHealth, h, h']
  repeat' split
  all_goals simp_all

@[simp] theorem pmHwOc_vsCond (cfg : Cfg) (i : Nat) (hw : Latch) (pm : PM) :
    (pmHwOc cfg i hw pm).1.vsCond = pm.vsCond := by
  simp only [pmHwOc]
  repeat' split
  all_goals rfl
@[simp] theorem pmHwOc_vsCnt (cfg : Cfg) (i : Nat) (hw : Latch) (pm : PM) :
    (pmHwOc cfg i hw pm).1.vsCnt = pm.vsCnt := by
  simp only [pmHwOc]
  repeat' split
  all_goals rfl
@[simp] theorem pmHwOc_ignCond (cfg : Cfg) (i : Nat) (hw : Latch) (pm : PM) :
    (pmHwOc cfg i hw pm).1.ignCond = pm.ignCond := by
  simp only [pmHwOc]
  repeat' split
  all_goals rfl
@[simp] theorem pmHwOc_ignCnt (cfg : Cfg) (i : Nat) (hw : Latch) (pm : PM) :
    (pmHwOc cfg i hw pm).1.ignCnt = pm.ignCnt := by
  simp only [pmHwOc]
  repeat' split
  all_goals rfl
@[simp] theorem pmHwOc_tCond (cfg : Cfg) (i : Nat) (hw : Latch) (pm : PM) :
    (pmHwOc cfg i hw pm).1.tCond = pm.tCond := by
  simp only [pmHwOc]
  repeat' split
  all_goals rfl
@[simp] theorem pmHwOc_tCnt (cfg : Cfg) (i : Nat) (hw : Latch) (pm : PM) : (pmHwOc cfg i hw pm).1.tCnt = pm.tCnt := by
  simp only [pmHwOc]
  repeat' split
  all_goals rfl
@[simp] theorem pmHwOc_mcuCond (cfg : Cfg) (i : Nat) (hw : Latch) (pm : PM) :
    (pmHwOc cfg i hw pm).1.mcuCond = pm.mcuCond := by
  simp only [pmHwOc]
  repeat' split
  all_goals rfl
@[simp] theorem pmHwOc_mcuCnt (cfg : Cfg) (i : Nat) (hw : Latch) (pm : PM) :
    (pmHwOc cfg i hw pm).1.mcuCnt = pm.mcuCnt := by
  simp only [pmHwOc]
  repeat' split
  all_goals rfl
@[simp] theorem pmHwOc_vdsCond (cfg : Cfg) (i : Nat) (hw : Latch) (pm : PM) :
    (pmHwOc cfg i hw pm).1.vdsCond = pm.vdsCond := by
  simp only [pmHwOc]
  repeat' split
  all_goals rfl
@[simp] theorem pmHwOc_vdsCnt (cfg : Cfg) (i : Nat) (hw : Latch) (pm : PM) :
    (pmHwOc cfg i hw pm).1.vdsCnt = pm.vdsCnt := by
  simp only [pmHwOc]
  repeat' split
  all_goals rfl

/-- `pmHwOc` reads no register but its own two. -/
theorem pmHwOc_congr (cfg : Cfg) (i : Nat) (hw : Latch) (pm pm' : PM)
    (h : pm'.ocCond = pm.ocCond) (h' : pm'.ocCnt = pm.ocCnt) :
    (pmHwOc cfg i hw pm').1.ocCond = (pmHwOc cfg i hw pm).1.ocCond ∧
    (pmHwOc cfg i hw pm').1.ocCnt = (pmHwOc cfg i hw pm).1.ocCnt := by
  simp only [pmHwOc, h, h']
  repeat' split
  all_goals simp_all

theorem pmHwOc_congr_rearm (cfg : Cfg) (i : Nat) (hw : Latch) (pm pm' : PM)
    (h : pm'.ocCond = pm.ocCond) (h' : pm'.ocCnt = pm.ocCnt) :
    (pmHwOc cfg i hw pm').2 = (pmHwOc cfg i hw pm).2 := by
  simp only [pmHwOc, h, h']
  repeat' split
  all_goals simp_all

@[simp] theorem pmHwVds_vsCond (cfg : Cfg) (outEn : Bool) (hw : Latch) (pm : PM) :
    (pmHwVds cfg outEn hw pm).1.vsCond = pm.vsCond := by
  simp only [pmHwVds]
  repeat' split
  all_goals rfl
@[simp] theorem pmHwVds_vsCnt (cfg : Cfg) (outEn : Bool) (hw : Latch) (pm : PM) :
    (pmHwVds cfg outEn hw pm).1.vsCnt = pm.vsCnt := by
  simp only [pmHwVds]
  repeat' split
  all_goals rfl
@[simp] theorem pmHwVds_ignCond (cfg : Cfg) (outEn : Bool) (hw : Latch) (pm : PM) :
    (pmHwVds cfg outEn hw pm).1.ignCond = pm.ignCond := by
  simp only [pmHwVds]
  repeat' split
  all_goals rfl
@[simp] theorem pmHwVds_ignCnt (cfg : Cfg) (outEn : Bool) (hw : Latch) (pm : PM) :
    (pmHwVds cfg outEn hw pm).1.ignCnt = pm.ignCnt := by
  simp only [pmHwVds]
  repeat' split
  all_goals rfl
@[simp] theorem pmHwVds_tCond (cfg : Cfg) (outEn : Bool) (hw : Latch) (pm : PM) :
    (pmHwVds cfg outEn hw pm).1.tCond = pm.tCond := by
  simp only [pmHwVds]
  repeat' split
  all_goals rfl
@[simp] theorem pmHwVds_tCnt (cfg : Cfg) (outEn : Bool) (hw : Latch) (pm : PM) :
    (pmHwVds cfg outEn hw pm).1.tCnt = pm.tCnt := by
  simp only [pmHwVds]
  repeat' split
  all_goals rfl
@[simp] theorem pmHwVds_mcuCond (cfg : Cfg) (outEn : Bool) (hw : Latch) (pm : PM) :
    (pmHwVds cfg outEn hw pm).1.mcuCond = pm.mcuCond := by
  simp only [pmHwVds]
  repeat' split
  all_goals rfl
@[simp] theorem pmHwVds_mcuCnt (cfg : Cfg) (outEn : Bool) (hw : Latch) (pm : PM) :
    (pmHwVds cfg outEn hw pm).1.mcuCnt = pm.mcuCnt := by
  simp only [pmHwVds]
  repeat' split
  all_goals rfl
@[simp] theorem pmHwVds_ocCond (cfg : Cfg) (outEn : Bool) (hw : Latch) (pm : PM) :
    (pmHwVds cfg outEn hw pm).1.ocCond = pm.ocCond := by
  simp only [pmHwVds]
  repeat' split
  all_goals rfl
@[simp] theorem pmHwVds_ocCnt (cfg : Cfg) (outEn : Bool) (hw : Latch) (pm : PM) :
    (pmHwVds cfg outEn hw pm).1.ocCnt = pm.ocCnt := by
  simp only [pmHwVds]
  repeat' split
  all_goals rfl

/-- `pmHwVds` reads no register but its own two. -/
theorem pmHwVds_congr (cfg : Cfg) (outEn : Bool) (hw : Latch) (pm pm' : PM)
    (h : pm'.vdsCond = pm.vdsCond) (h' : pm'.vdsCnt = pm.vdsCnt) :
    (pmHwVds cfg outEn hw pm').1.vdsCond = (pmHwVds cfg outEn hw pm).1.vdsCond ∧
    (pmHwVds cfg outEn hw pm').1.vdsCnt = (pmHwVds cfg outEn hw pm).1.vdsCnt := by
  simp only [pmHwVds, h, h']
  repeat' split
  all_goals simp_all

theorem pmHwVds_congr_rearm (cfg : Cfg) (outEn : Bool) (hw : Latch) (pm pm' : PM)
    (h : pm'.vdsCond = pm.vdsCond) (h' : pm'.vdsCnt = pm.vdsCnt) :
    (pmHwVds cfg outEn hw pm').2 = (pmHwVds cfg outEn hw pm).2 := by
  simp only [pmHwVds, h, h']
  repeat' split
  all_goals simp_all

/-! ### What each monitor re-arms (R149): a latch bit, on the return to Normal of the condition it raises -/

theorem pmSupply_rearm (cfg : Cfg) (v : Nat) (hw : Latch) (pm : PM) :
    (pmSupply cfg v hw pm).2 =
      pulseIf latchOV (decide (pm.vsCond = .over) && decide ((pmSupply cfg v hw pm).1.vsCond = .normal) &&
        hw.getLsbD 0) |||
      pulseIf latchUV (decide (pm.vsCond = .under) && decide ((pmSupply cfg v hw pm).1.vsCond = .normal) &&
        hw.getLsbD 1) := by
  by_cases h : pm.vsCond = .normal
  · simp only [pmSupply, h]
    split
    · simp [pulseIf]
    · split <;> simp [pulseIf]
  · simp only [pmSupply, h, false_and, if_false, hasBit_latchOV, hasBit_latchUV]

theorem pmTemperature_rearm (cfg : Cfg) (v : Nat) (hw : Latch) (pm : PM) :
    (pmTemperature cfg v hw pm).2 =
      pulseIf latchOT (decide (pm.tCond = .high) && decide ((pmTemperature cfg v hw pm).1.tCond = .normal) &&
        hw.getLsbD 2) := by
  by_cases h : pm.tCond = .normal
  · simp only [pmTemperature, h]
    split <;> simp [pulseIf]
  · simp only [pmTemperature, h, false_and, if_false, hasBit_latchOT]

theorem pmHwOc_rearm (cfg : Cfg) (i : Nat) (hw : Latch) (pm : PM) :
    (pmHwOc cfg i hw pm).2 =
      pulseIf latchOC (decide (pm.ocCond = .over) && decide ((pmHwOc cfg i hw pm).1.ocCond = .normal) &&
        hw.getLsbD 3) := by
  cases h : pm.ocCond
  · simp only [pmHwOc, h, if_true]
    split <;> simp [pulseIf]
  · simp only [pmHwOc, h, hasBit_latchOC, reduceCtorEq, if_false]
    split <;> simp [pulseIf]

theorem pmHwVds_rearm (cfg : Cfg) (outEn : Bool) (hw : Latch) (pm : PM) :
    (pmHwVds cfg outEn hw pm).2 =
      pulseIf latchVDS (decide (pm.vdsCond = .short) && decide ((pmHwVds cfg outEn hw pm).1.vdsCond = .normal) &&
        hw.getLsbD 4) := by
  cases h : pm.vdsCond
  · simp only [pmHwVds, h, if_true]
    split <;> simp [pulseIf]
  · simp only [pmHwVds, h, hasBit_latchVDS, reduceCtorEq, if_false]
    split <;> simp [pulseIf]

/-! ### The six monitors together (R142) -/

theorem pmTick_vsCond (cfg : Cfg) (m : Memory) (hw : Latch) (outEn : Bool) (pm : PM) :
    (pmTick cfg m hw outEn pm).1.vsCond = (pmSupply cfg (avg m .vs) hw pm).1.vsCond := by
  simp [pmTick]

theorem pmTick_vsCnt (cfg : Cfg) (m : Memory) (hw : Latch) (outEn : Bool) (pm : PM) :
    (pmTick cfg m hw outEn pm).1.vsCnt = (pmSupply cfg (avg m .vs) hw pm).1.vsCnt := by
  simp [pmTick]

theorem pmTick_ignCond (cfg : Cfg) (m : Memory) (hw : Latch) (outEn : Bool) (pm : PM) :
    (pmTick cfg m hw outEn pm).1.ignCond = (pmIgnition cfg (avg m .ign) pm).ignCond := by
  rw [pmTick]; simp
  exact (pmIgnition_congr _ (avg m .ign) _ _ (by simp) (by simp)).1

theorem pmTick_ignCnt (cfg : Cfg) (m : Memory) (hw : Latch) (outEn : Bool) (pm : PM) :
    (pmTick cfg m hw outEn pm).1.ignCnt = (pmIgnition cfg (avg m .ign) pm).ignCnt := by
  rw [pmTick]; simp
  exact (pmIgnition_congr _ (avg m .ign) _ _ (by simp) (by simp)).2

theorem pmTick_tCond (cfg : Cfg) (m : Memory) (hw : Latch) (outEn : Bool) (pm : PM) :
    (pmTick cfg m hw outEn pm).1.tCond = (pmTemperature cfg (avg m .temp) hw pm).1.tCond := by
  rw [pmTick]; simp
  exact (pmTemperature_congr _ (avg m .temp) hw _ _ (by simp) (by simp)).1

theorem pmTick_tCnt (cfg : Cfg) (m : Memory) (hw : Latch) (outEn : Bool) (pm : PM) :
    (pmTick cfg m hw outEn pm).1.tCnt = (pmTemperature cfg (avg m .temp) hw pm).1.tCnt := by
  rw [pmTick]; simp
  exact (pmTemperature_congr _ (avg m .temp) hw _ _ (by simp) (by simp)).2

theorem pmTick_mcuCond (cfg : Cfg) (m : Memory) (hw : Latch) (outEn : Bool) (pm : PM) :
    (pmTick cfg m hw outEn pm).1.mcuCond = (pmMcuHealth cfg (avg m .vdda) pm).mcuCond := by
  rw [pmTick]; simp
  exact (pmMcuHealth_congr _ (avg m .vdda) _ _ (by simp) (by simp)).1

theorem pmTick_mcuCnt (cfg : Cfg) (m : Memory) (hw : Latch) (outEn : Bool) (pm : PM) :
    (pmTick cfg m hw outEn pm).1.mcuCnt = (pmMcuHealth cfg (avg m .vdda) pm).mcuCnt := by
  rw [pmTick]; simp
  exact (pmMcuHealth_congr _ (avg m .vdda) _ _ (by simp) (by simp)).2

theorem pmTick_ocCond (cfg : Cfg) (m : Memory) (hw : Latch) (outEn : Bool) (pm : PM) :
    (pmTick cfg m hw outEn pm).1.ocCond = (pmHwOc cfg (iavg m) hw pm).1.ocCond := by
  rw [pmTick]; simp
  exact (pmHwOc_congr _ (iavg m) hw _ _ (by simp) (by simp)).1

theorem pmTick_ocCnt (cfg : Cfg) (m : Memory) (hw : Latch) (outEn : Bool) (pm : PM) :
    (pmTick cfg m hw outEn pm).1.ocCnt = (pmHwOc cfg (iavg m) hw pm).1.ocCnt := by
  rw [pmTick]; simp
  exact (pmHwOc_congr _ (iavg m) hw _ _ (by simp) (by simp)).2

theorem pmTick_vdsCond (cfg : Cfg) (m : Memory) (hw : Latch) (outEn : Bool) (pm : PM) :
    (pmTick cfg m hw outEn pm).1.vdsCond = (pmHwVds cfg outEn hw pm).1.vdsCond := by
  simp only [pmTick]
  exact (pmHwVds_congr _ outEn hw _ _ (by simp) (by simp)).1

theorem pmTick_vdsCnt (cfg : Cfg) (m : Memory) (hw : Latch) (outEn : Bool) (pm : PM) :
    (pmTick cfg m hw outEn pm).1.vdsCnt = (pmHwVds cfg outEn hw pm).1.vdsCnt := by
  simp only [pmTick]
  exact (pmHwVds_congr _ outEn hw _ _ (by simp) (by simp)).2

/-- The mask `rearm` of R149, from the conditions before and after the tick. -/
theorem pmTick_rearm (cfg : Cfg) (m : Memory) (hw : Latch) (outEn : Bool) (pm : PM) :
    (pmTick cfg m hw outEn pm).2 =
      (pmSupply cfg (avg m .vs) hw pm).2 ||| (pmTemperature cfg (avg m .temp) hw pm).2 |||
      (pmHwOc cfg (iavg m) hw pm).2 ||| (pmHwVds cfg outEn hw pm).2 := by
  simp only [pmTick]
  rw [pmTemperature_congr_rearm, pmHwOc_congr_rearm, pmHwVds_congr_rearm]
  all_goals simp

/-- The five bits of the mask `rearm` (R149). -/
theorem pmTick_rearm_bits (cfg : Cfg) (m : Memory) (hw : Latch) (outEn : Bool) (pm : PM) :
    let r := pmTick cfg m hw outEn pm
    r.2.getLsbD 0 = (decide (pm.vsCond = .over) && decide (r.1.vsCond = .normal) && hw.getLsbD 0) ∧
    r.2.getLsbD 1 = (decide (pm.vsCond = .under) && decide (r.1.vsCond = .normal) && hw.getLsbD 1) ∧
    r.2.getLsbD 2 = (decide (pm.tCond = .high) && decide (r.1.tCond = .normal) && hw.getLsbD 2) ∧
    r.2.getLsbD 3 = (decide (pm.ocCond = .over) && decide (r.1.ocCond = .normal) && hw.getLsbD 3) ∧
    r.2.getLsbD 4 = (decide (pm.vdsCond = .short) && decide (r.1.vdsCond = .normal) && hw.getLsbD 4) := by
  simp only [pmTick_rearm, pmTick_vsCond, pmTick_tCond, pmTick_ocCond, pmTick_vdsCond]
  rw [pmSupply_rearm, pmTemperature_rearm, pmHwOc_rearm, pmHwVds_rearm]
  simp only [BitVec.getLsbD_or, getLsbD_pulseIf]
  refine ⟨?_, ?_, ?_, ?_, ?_⟩ <;> simp [latchOV, latchUV, latchOT, latchOC, latchVDS]

end Sys2Proof.Machine
end

