-- ==== Sys2Proof/Laws/MotorFrame.lean ====
section
/-! SUPPORT. The frame of every sub-step of the motor tick, one lemma per field it leaves alone, and what `enter` and the
sub-steps write. -/

namespace Sys2Proof.Machine

/-! ### Frame of `OBSERVE` (R183) -/

@[simp] theorem observe_mstate (cfg : Cfg) (mc : MC) : (mc.observe cfg).mstate = mc.mstate := by
  simp only [MC.observe]; split <;> rfl
@[simp] theorem observe_initStatus (cfg : Cfg) (mc : MC) : (mc.observe cfg).initStatus = mc.initStatus := by
  simp only [MC.observe]; split <;> rfl
@[simp] theorem observe_elapsed (cfg : Cfg) (mc : MC) : (mc.observe cfg).elapsed = mc.elapsed := by
  simp only [MC.observe]; split <;> rfl
@[simp] theorem observe_targetAngle (cfg : Cfg) (mc : MC) : (mc.observe cfg).targetAngle = mc.targetAngle := by
  simp only [MC.observe]; split <;> rfl
@[simp] theorem observe_haveTarget (cfg : Cfg) (mc : MC) : (mc.observe cfg).haveTarget = mc.haveTarget := by
  simp only [MC.observe]; split <;> rfl
@[simp] theorem observe_currentAngle (cfg : Cfg) (mc : MC) : (mc.observe cfg).currentAngle = mc.currentAngle := by
  simp only [MC.observe]; split <;> rfl
@[simp] theorem observe_hardStop (cfg : Cfg) (mc : MC) : (mc.observe cfg).hardStop = mc.hardStop := by
  simp only [MC.observe]; split <;> rfl
@[simp] theorem observe_moveReq (cfg : Cfg) (mc : MC) : (mc.observe cfg).moveReq = mc.moveReq := by
  simp only [MC.observe]; split <;> rfl
@[simp] theorem observe_posReached (cfg : Cfg) (mc : MC) : (mc.observe cfg).posReached = mc.posReached := by
  simp only [MC.observe]; split <;> rfl
@[simp] theorem observe_dir (cfg : Cfg) (mc : MC) : (mc.observe cfg).dir = mc.dir := by
  simp only [MC.observe]; split <;> rfl
@[simp] theorem observe_duty (cfg : Cfg) (mc : MC) : (mc.observe cfg).duty = mc.duty := by
  simp only [MC.observe]; split <;> rfl
@[simp] theorem observe_outEn (cfg : Cfg) (mc : MC) : (mc.observe cfg).outEn = mc.outEn := by
  simp only [MC.observe]; split <;> rfl
@[simp] theorem observe_dutySaved (cfg : Cfg) (mc : MC) : (mc.observe cfg).dutySaved = mc.dutySaved := by
  simp only [MC.observe]; split <;> rfl
@[simp] theorem observe_restore (cfg : Cfg) (mc : MC) : (mc.observe cfg).restore = mc.restore := by
  simp only [MC.observe]; split <;> rfl
@[simp] theorem observe_restoreCnt (cfg : Cfg) (mc : MC) : (mc.observe cfg).restoreCnt = mc.restoreCnt := by
  simp only [MC.observe]; split <;> rfl
@[simp] theorem observe_enTimer (cfg : Cfg) (mc : MC) : (mc.observe cfg).enTimer = mc.enTimer := by
  simp only [MC.observe]; split <;> rfl
@[simp] theorem observe_thrHalf (cfg : Cfg) (mc : MC) : (mc.observe cfg).thrHalf = mc.thrHalf := by
  simp only [MC.observe]; split <;> rfl
@[simp] theorem observe_thrFull (cfg : Cfg) (mc : MC) : (mc.observe cfg).thrFull = mc.thrFull := by
  simp only [MC.observe]; split <;> rfl
@[simp] theorem observe_minDuty (cfg : Cfg) (mc : MC) : (mc.observe cfg).minDuty = mc.minDuty := by
  simp only [MC.observe]; split <;> rfl
@[simp] theorem observe_obstrCnt (cfg : Cfg) (mc : MC) : (mc.observe cfg).obstrCnt = mc.obstrCnt := by
  simp only [MC.observe]; split <;> rfl
@[simp] theorem observe_stallCnt (cfg : Cfg) (mc : MC) : (mc.observe cfg).stallCnt = mc.stallCnt := by
  simp only [MC.observe]; split <;> rfl
@[simp] theorem observe_openCnt (cfg : Cfg) (mc : MC) : (mc.observe cfg).openCnt = mc.openCnt := by
  simp only [MC.observe]; split <;> rfl
@[simp] theorem observe_shortCnt (cfg : Cfg) (mc : MC) : (mc.observe cfg).shortCnt = mc.shortCnt := by
  simp only [MC.observe]; split <;> rfl
@[simp] theorem observe_ocCnt (cfg : Cfg) (mc : MC) : (mc.observe cfg).ocCnt = mc.ocCnt := by
  simp only [MC.observe]; split <;> rfl
@[simp] theorem observe_stallFlags (cfg : Cfg) (mc : MC) : (mc.observe cfg).stallFlags = mc.stallFlags := by
  simp only [MC.observe]; split <;> rfl
@[simp] theorem observe_faultFlags (cfg : Cfg) (mc : MC) : (mc.observe cfg).faultFlags = mc.faultFlags := by
  simp only [MC.observe]; split <;> rfl

/-! ### Frame of `LOOKUP` (R190) -/

@[simp] theorem lookup_mstate (cfg : Cfg) (v : Nat) (mc : MC) : (mc.lookup cfg v).mstate = mc.mstate := by
  simp only [MC.lookup]; split <;> rfl
@[simp] theorem lookup_initStatus (cfg : Cfg) (v : Nat) (mc : MC) : (mc.lookup cfg v).initStatus = mc.initStatus := by
  simp only [MC.lookup]; split <;> rfl
@[simp] theorem lookup_elapsed (cfg : Cfg) (v : Nat) (mc : MC) : (mc.lookup cfg v).elapsed = mc.elapsed := by
  simp only [MC.lookup]; split <;> rfl
@[simp] theorem lookup_targetAngle (cfg : Cfg) (v : Nat) (mc : MC) : (mc.lookup cfg v).targetAngle = mc.targetAngle := by
  simp only [MC.lookup]; split <;> rfl
@[simp] theorem lookup_haveTarget (cfg : Cfg) (v : Nat) (mc : MC) : (mc.lookup cfg v).haveTarget = mc.haveTarget := by
  simp only [MC.lookup]; split <;> rfl
@[simp] theorem lookup_currentAngle (cfg : Cfg) (v : Nat) (mc : MC) : (mc.lookup cfg v).currentAngle = mc.currentAngle := by
  simp only [MC.lookup]; split <;> rfl
@[simp] theorem lookup_hardStop (cfg : Cfg) (v : Nat) (mc : MC) : (mc.lookup cfg v).hardStop = mc.hardStop := by
  simp only [MC.lookup]; split <;> rfl
@[simp] theorem lookup_moveReq (cfg : Cfg) (v : Nat) (mc : MC) : (mc.lookup cfg v).moveReq = mc.moveReq := by
  simp only [MC.lookup]; split <;> rfl
@[simp] theorem lookup_posReached (cfg : Cfg) (v : Nat) (mc : MC) : (mc.lookup cfg v).posReached = mc.posReached := by
  simp only [MC.lookup]; split <;> rfl
@[simp] theorem lookup_dir (cfg : Cfg) (v : Nat) (mc : MC) : (mc.lookup cfg v).dir = mc.dir := by
  simp only [MC.lookup]; split <;> rfl
@[simp] theorem lookup_duty (cfg : Cfg) (v : Nat) (mc : MC) : (mc.lookup cfg v).duty = mc.duty := by
  simp only [MC.lookup]; split <;> rfl
@[simp] theorem lookup_outEn (cfg : Cfg) (v : Nat) (mc : MC) : (mc.lookup cfg v).outEn = mc.outEn := by
  simp only [MC.lookup]; split <;> rfl
@[simp] theorem lookup_dutySaved (cfg : Cfg) (v : Nat) (mc : MC) : (mc.lookup cfg v).dutySaved = mc.dutySaved := by
  simp only [MC.lookup]; split <;> rfl
@[simp] theorem lookup_restore (cfg : Cfg) (v : Nat) (mc : MC) : (mc.lookup cfg v).restore = mc.restore := by
  simp only [MC.lookup]; split <;> rfl
@[simp] theorem lookup_restoreCnt (cfg : Cfg) (v : Nat) (mc : MC) : (mc.lookup cfg v).restoreCnt = mc.restoreCnt := by
  simp only [MC.lookup]; split <;> rfl
@[simp] theorem lookup_enTimer (cfg : Cfg) (v : Nat) (mc : MC) : (mc.lookup cfg v).enTimer = mc.enTimer := by
  simp only [MC.lookup]; split <;> rfl
@[simp] theorem lookup_winCnt (cfg : Cfg) (v : Nat) (mc : MC) : (mc.lookup cfg v).winCnt = mc.winCnt := by
  simp only [MC.lookup]; split <;> rfl
@[simp] theorem lookup_refAngle (cfg : Cfg) (v : Nat) (mc : MC) : (mc.lookup cfg v).refAngle = mc.refAngle := by
  simp only [MC.lookup]; split <;> rfl
@[simp] theorem lookup_motionDelta (cfg : Cfg) (v : Nat) (mc : MC) : (mc.lookup cfg v).motionDelta = mc.motionDelta := by
  simp only [MC.lookup]; split <;> rfl
@[simp] theorem lookup_obstrCnt (cfg : Cfg) (v : Nat) (mc : MC) : (mc.lookup cfg v).obstrCnt = mc.obstrCnt := by
  simp only [MC.lookup]; split <;> rfl
@[simp] theorem lookup_stallCnt (cfg : Cfg) (v : Nat) (mc : MC) : (mc.lookup cfg v).stallCnt = mc.stallCnt := by
  simp only [MC.lookup]; split <;> rfl
@[simp] theorem lookup_openCnt (cfg : Cfg) (v : Nat) (mc : MC) : (mc.lookup cfg v).openCnt = mc.openCnt := by
  simp only [MC.lookup]; split <;> rfl
@[simp] theorem lookup_shortCnt (cfg : Cfg) (v : Nat) (mc : MC) : (mc.lookup cfg v).shortCnt = mc.shortCnt := by
  simp only [MC.lookup]; split <;> rfl
@[simp] theorem lookup_ocCnt (cfg : Cfg) (v : Nat) (mc : MC) : (mc.lookup cfg v).ocCnt = mc.ocCnt := by
  simp only [MC.lookup]; split <;> rfl
@[simp] theorem lookup_stallFlags (cfg : Cfg) (v : Nat) (mc : MC) : (mc.lookup cfg v).stallFlags = mc.stallFlags := by
  simp only [MC.lookup]; split <;> rfl
@[simp] theorem lookup_faultFlags (cfg : Cfg) (v : Nat) (mc : MC) : (mc.lookup cfg v).faultFlags = mc.faultFlags := by
  simp only [MC.lookup]; split <;> rfl

/-! ### Frame of `REACHED` (R184) -/

@[simp] theorem reached_mstate (cfg : Cfg) (dist : Nat) (mc : MC) : (mc.reached cfg dist).mstate = mc.mstate := by
  simp only [MC.reached]; split <;> rfl
@[simp] theorem reached_initStatus (cfg : Cfg) (dist : Nat) (mc : MC) :
    (mc.reached cfg dist).initStatus = mc.initStatus := by
  simp only [MC.reached]; split <;> rfl
@[simp] theorem reached_elapsed (cfg : Cfg) (dist : Nat) (mc : MC) : (mc.reached cfg dist).elapsed = mc.elapsed := by
  simp only [MC.reached]; split <;> rfl
@[simp] theorem reached_targetAngle (cfg : Cfg) (dist : Nat) (mc : MC) :
    (mc.reached cfg dist).targetAngle = mc.targetAngle := by
  simp only [MC.reached]; split <;> rfl
@[simp] theorem reached_haveTarget (cfg : Cfg) (dist : Nat) (mc : MC) :
    (mc.reached cfg dist).haveTarget = mc.haveTarget := by
  simp only [MC.reached]; split <;> rfl
@[simp] theorem reached_currentAngle (cfg : Cfg) (dist : Nat) (mc : MC) :
    (mc.reached cfg dist).currentAngle = mc.currentAngle := by
  simp only [MC.reached]; split <;> rfl
@[simp] theorem reached_hardStop (cfg : Cfg) (dist : Nat) (mc : MC) : (mc.reached cfg dist).hardStop = mc.hardStop := by
  simp only [MC.reached]; split <;> rfl
@[simp] theorem reached_dir (cfg : Cfg) (dist : Nat) (mc : MC) : (mc.reached cfg dist).dir = mc.dir := by
  simp only [MC.reached]; split <;> rfl
@[simp] theorem reached_duty (cfg : Cfg) (dist : Nat) (mc : MC) : (mc.reached cfg dist).duty = mc.duty := by
  simp only [MC.reached]; split <;> rfl
@[simp] theorem reached_dutySaved (cfg : Cfg) (dist : Nat) (mc : MC) : (mc.reached cfg dist).dutySaved = mc.dutySaved := by
  simp only [MC.reached]; split <;> rfl
@[simp] theorem reached_restore (cfg : Cfg) (dist : Nat) (mc : MC) : (mc.reached cfg dist).restore = mc.restore := by
  simp only [MC.reached]; split <;> rfl
@[simp] theorem reached_restoreCnt (cfg : Cfg) (dist : Nat) (mc : MC) :
    (mc.reached cfg dist).restoreCnt = mc.restoreCnt := by
  simp only [MC.reached]; split <;> rfl
@[simp] theorem reached_enTimer (cfg : Cfg) (dist : Nat) (mc : MC) : (mc.reached cfg dist).enTimer = mc.enTimer := by
  simp only [MC.reached]; split <;> rfl
@[simp] theorem reached_winCnt (cfg : Cfg) (dist : Nat) (mc : MC) : (mc.reached cfg dist).winCnt = mc.winCnt := by
  simp only [MC.reached]; split <;> rfl
@[simp] theorem reached_refAngle (cfg : Cfg) (dist : Nat) (mc : MC) : (mc.reached cfg dist).refAngle = mc.refAngle := by
  simp only [MC.reached]; split <;> rfl
@[simp] theorem reached_motionDelta (cfg : Cfg) (dist : Nat) (mc : MC) :
    (mc.reached cfg dist).motionDelta = mc.motionDelta := by
  simp only [MC.reached]; split <;> rfl
@[simp] theorem reached_thrHalf (cfg : Cfg) (dist : Nat) (mc : MC) : (mc.reached cfg dist).thrHalf = mc.thrHalf := by
  simp only [MC.reached]; split <;> rfl
@[simp] theorem reached_thrFull (cfg : Cfg) (dist : Nat) (mc : MC) : (mc.reached cfg dist).thrFull = mc.thrFull := by
  simp only [MC.reached]; split <;> rfl
@[simp] theorem reached_minDuty (cfg : Cfg) (dist : Nat) (mc : MC) : (mc.reached cfg dist).minDuty = mc.minDuty := by
  simp only [MC.reached]; split <;> rfl
@[simp] theorem reached_obstrCnt (cfg : Cfg) (dist : Nat) (mc : MC) : (mc.reached cfg dist).obstrCnt = mc.obstrCnt := by
  simp only [MC.reached]; split <;> rfl
@[simp] theorem reached_stallCnt (cfg : Cfg) (dist : Nat) (mc : MC) : (mc.reached cfg dist).stallCnt = mc.stallCnt := by
  simp only [MC.reached]; split <;> rfl
@[simp] theorem reached_openCnt (cfg : Cfg) (dist : Nat) (mc : MC) : (mc.reached cfg dist).openCnt = mc.openCnt := by
  simp only [MC.reached]; split <;> rfl
@[simp] theorem reached_shortCnt (cfg : Cfg) (dist : Nat) (mc : MC) : (mc.reached cfg dist).shortCnt = mc.shortCnt := by
  simp only [MC.reached]; split <;> rfl
@[simp] theorem reached_ocCnt (cfg : Cfg) (dist : Nat) (mc : MC) : (mc.reached cfg dist).ocCnt = mc.ocCnt := by
  simp only [MC.reached]; split <;> rfl
@[simp] theorem reached_stallFlags (cfg : Cfg) (dist : Nat) (mc : MC) :
    (mc.reached cfg dist).stallFlags = mc.stallFlags := by
  simp only [MC.reached]; split <;> rfl
@[simp] theorem reached_faultFlags (cfg : Cfg) (dist : Nat) (mc : MC) :
    (mc.reached cfg dist).faultFlags = mc.faultFlags := by
  simp only [MC.reached]; split <;> rfl

/-! ### Frame of `STALLDET` (R193) -/

@[simp] theorem stallDet_mstate (cfg : Cfg) (i : Nat) (mc : MC) : (mc.stallDet cfg i).mstate = mc.mstate := (rfl)
@[simp] theorem stallDet_initStatus (cfg : Cfg) (i : Nat) (mc : MC) : (mc.stallDet cfg i).initStatus = mc.initStatus := (rfl)
@[simp] theorem stallDet_elapsed (cfg : Cfg) (i : Nat) (mc : MC) : (mc.stallDet cfg i).elapsed = mc.elapsed := (rfl)
@[simp] theorem stallDet_targetAngle (cfg : Cfg) (i : Nat) (mc : MC) : (mc.stallDet cfg i).targetAngle = mc.targetAngle := (rfl)
@[simp] theorem stallDet_haveTarget (cfg : Cfg) (i : Nat) (mc : MC) : (mc.stallDet cfg i).haveTarget = mc.haveTarget := (rfl)
@[simp] theorem stallDet_currentAngle (cfg : Cfg) (i : Nat) (mc : MC) : (mc.stallDet cfg i).currentAngle = mc.currentAngle := (rfl)
@[simp] theorem stallDet_hardStop (cfg : Cfg) (i : Nat) (mc : MC) : (mc.stallDet cfg i).hardStop = mc.hardStop := (rfl)
@[simp] theorem stallDet_moveReq (cfg : Cfg) (i : Nat) (mc : MC) : (mc.stallDet cfg i).moveReq = mc.moveReq := (rfl)
@[simp] theorem stallDet_posReached (cfg : Cfg) (i : Nat) (mc : MC) : (mc.stallDet cfg i).posReached = mc.posReached := (rfl)
@[simp] theorem stallDet_dir (cfg : Cfg) (i : Nat) (mc : MC) : (mc.stallDet cfg i).dir = mc.dir := (rfl)
@[simp] theorem stallDet_duty (cfg : Cfg) (i : Nat) (mc : MC) : (mc.stallDet cfg i).duty = mc.duty := (rfl)
@[simp] theorem stallDet_outEn (cfg : Cfg) (i : Nat) (mc : MC) : (mc.stallDet cfg i).outEn = mc.outEn := (rfl)
@[simp] theorem stallDet_dutySaved (cfg : Cfg) (i : Nat) (mc : MC) : (mc.stallDet cfg i).dutySaved = mc.dutySaved := (rfl)
@[simp] theorem stallDet_restore (cfg : Cfg) (i : Nat) (mc : MC) : (mc.stallDet cfg i).restore = mc.restore := (rfl)
@[simp] theorem stallDet_restoreCnt (cfg : Cfg) (i : Nat) (mc : MC) : (mc.stallDet cfg i).restoreCnt = mc.restoreCnt := (rfl)
@[simp] theorem stallDet_enTimer (cfg : Cfg) (i : Nat) (mc : MC) : (mc.stallDet cfg i).enTimer = mc.enTimer := (rfl)
@[simp] theorem stallDet_winCnt (cfg : Cfg) (i : Nat) (mc : MC) : (mc.stallDet cfg i).winCnt = mc.winCnt := (rfl)
@[simp] theorem stallDet_refAngle (cfg : Cfg) (i : Nat) (mc : MC) : (mc.stallDet cfg i).refAngle = mc.refAngle := (rfl)
@[simp] theorem stallDet_motionDelta (cfg : Cfg) (i : Nat) (mc : MC) : (mc.stallDet cfg i).motionDelta = mc.motionDelta := (rfl)
@[simp] theorem stallDet_thrHalf (cfg : Cfg) (i : Nat) (mc : MC) : (mc.stallDet cfg i).thrHalf = mc.thrHalf := (rfl)
@[simp] theorem stallDet_thrFull (cfg : Cfg) (i : Nat) (mc : MC) : (mc.stallDet cfg i).thrFull = mc.thrFull := (rfl)
@[simp] theorem stallDet_minDuty (cfg : Cfg) (i : Nat) (mc : MC) : (mc.stallDet cfg i).minDuty = mc.minDuty := (rfl)
@[simp] theorem stallDet_openCnt (cfg : Cfg) (i : Nat) (mc : MC) : (mc.stallDet cfg i).openCnt = mc.openCnt := (rfl)
@[simp] theorem stallDet_shortCnt (cfg : Cfg) (i : Nat) (mc : MC) : (mc.stallDet cfg i).shortCnt = mc.shortCnt := (rfl)
@[simp] theorem stallDet_ocCnt (cfg : Cfg) (i : Nat) (mc : MC) : (mc.stallDet cfg i).ocCnt = mc.ocCnt := (rfl)
@[simp] theorem stallDet_faultFlags (cfg : Cfg) (i : Nat) (mc : MC) : (mc.stallDet cfg i).faultFlags = mc.faultFlags := (rfl)

/-! ### Frame of `FAULTDET` (R196 to R198) -/

@[simp] theorem faultDet_mstate (cfg : Cfg) (i i' : Nat) (hw : Latch) (mc : MC) : (mc.faultDet cfg i i' hw).mstate = mc.mstate := (rfl)
@[simp] theorem faultDet_initStatus (cfg : Cfg) (i i' : Nat) (hw : Latch) (mc : MC) : (mc.faultDet cfg i i' hw).initStatus = mc.initStatus := (rfl)
@[simp] theorem faultDet_elapsed (cfg : Cfg) (i i' : Nat) (hw : Latch) (mc : MC) : (mc.faultDet cfg i i' hw).elapsed = mc.elapsed := (rfl)
@[simp] theorem faultDet_targetAngle (cfg : Cfg) (i i' : Nat) (hw : Latch) (mc : MC) : (mc.faultDet cfg i i' hw).targetAngle = mc.targetAngle := (rfl)
@[simp] theorem faultDet_haveTarget (cfg : Cfg) (i i' : Nat) (hw : Latch) (mc : MC) : (mc.faultDet cfg i i' hw).haveTarget = mc.haveTarget := (rfl)
@[simp] theorem faultDet_currentAngle (cfg : Cfg) (i i' : Nat) (hw : Latch) (mc : MC) : (mc.faultDet cfg i i' hw).currentAngle = mc.currentAngle := (rfl)
@[simp] theorem faultDet_hardStop (cfg : Cfg) (i i' : Nat) (hw : Latch) (mc : MC) : (mc.faultDet cfg i i' hw).hardStop = mc.hardStop := (rfl)
@[simp] theorem faultDet_moveReq (cfg : Cfg) (i i' : Nat) (hw : Latch) (mc : MC) : (mc.faultDet cfg i i' hw).moveReq = mc.moveReq := (rfl)
@[simp] theorem faultDet_posReached (cfg : Cfg) (i i' : Nat) (hw : Latch) (mc : MC) : (mc.faultDet cfg i i' hw).posReached = mc.posReached := (rfl)
@[simp] theorem faultDet_dir (cfg : Cfg) (i i' : Nat) (hw : Latch) (mc : MC) : (mc.faultDet cfg i i' hw).dir = mc.dir := (rfl)
@[simp] theorem faultDet_duty (cfg : Cfg) (i i' : Nat) (hw : Latch) (mc : MC) : (mc.faultDet cfg i i' hw).duty = mc.duty := (rfl)
@[simp] theorem faultDet_outEn (cfg : Cfg) (i i' : Nat) (hw : Latch) (mc : MC) : (mc.faultDet cfg i i' hw).outEn = mc.outEn := (rfl)
@[simp] theorem faultDet_dutySaved (cfg : Cfg) (i i' : Nat) (hw : Latch) (mc : MC) : (mc.faultDet cfg i i' hw).dutySaved = mc.dutySaved := (rfl)
@[simp] theorem faultDet_restore (cfg : Cfg) (i i' : Nat) (hw : Latch) (mc : MC) : (mc.faultDet cfg i i' hw).restore = mc.restore := (rfl)
@[simp] theorem faultDet_restoreCnt (cfg : Cfg) (i i' : Nat) (hw : Latch) (mc : MC) : (mc.faultDet cfg i i' hw).restoreCnt = mc.restoreCnt := (rfl)
@[simp] theorem faultDet_enTimer (cfg : Cfg) (i i' : Nat) (hw : Latch) (mc : MC) : (mc.faultDet cfg i i' hw).enTimer = mc.enTimer := (rfl)
@[simp] theorem faultDet_winCnt (cfg : Cfg) (i i' : Nat) (hw : Latch) (mc : MC) : (mc.faultDet cfg i i' hw).winCnt = mc.winCnt := (rfl)
@[simp] theorem faultDet_refAngle (cfg : Cfg) (i i' : Nat) (hw : Latch) (mc : MC) : (mc.faultDet cfg i i' hw).refAngle = mc.refAngle := (rfl)
@[simp] theorem faultDet_motionDelta (cfg : Cfg) (i i' : Nat) (hw : Latch) (mc : MC) : (mc.faultDet cfg i i' hw).motionDelta = mc.motionDelta := (rfl)
@[simp] theorem faultDet_thrHalf (cfg : Cfg) (i i' : Nat) (hw : Latch) (mc : MC) : (mc.faultDet cfg i i' hw).thrHalf = mc.thrHalf := (rfl)
@[simp] theorem faultDet_thrFull (cfg : Cfg) (i i' : Nat) (hw : Latch) (mc : MC) : (mc.faultDet cfg i i' hw).thrFull = mc.thrFull := (rfl)
@[simp] theorem faultDet_minDuty (cfg : Cfg) (i i' : Nat) (hw : Latch) (mc : MC) : (mc.faultDet cfg i i' hw).minDuty = mc.minDuty := (rfl)
@[simp] theorem faultDet_obstrCnt (cfg : Cfg) (i i' : Nat) (hw : Latch) (mc : MC) : (mc.faultDet cfg i i' hw).obstrCnt = mc.obstrCnt := (rfl)
@[simp] theorem faultDet_stallCnt (cfg : Cfg) (i i' : Nat) (hw : Latch) (mc : MC) : (mc.faultDet cfg i i' hw).stallCnt = mc.stallCnt := (rfl)
@[simp] theorem faultDet_stallFlags (cfg : Cfg) (i i' : Nat) (hw : Latch) (mc : MC) : (mc.faultDet cfg i i' hw).stallFlags = mc.stallFlags := (rfl)

/-! ### Frame of sub-steps 1 to 5 (R180) -/

@[simp] theorem measure_mstate (cfg : Cfg) (v i i' : Nat) (hw : Latch) (mc : MC) :
    (mc.measure cfg v i i' hw).mstate = mc.mstate := by
  simp [MC.measure]
@[simp] theorem measure_initStatus (cfg : Cfg) (v i i' : Nat) (hw : Latch) (mc : MC) :
    (mc.measure cfg v i i' hw).initStatus = mc.initStatus := by
  simp [MC.measure]
@[simp] theorem measure_elapsed (cfg : Cfg) (v i i' : Nat) (hw : Latch) (mc : MC) :
    (mc.measure cfg v i i' hw).elapsed = mc.elapsed := by
  simp [MC.measure]
@[simp] theorem measure_targetAngle (cfg : Cfg) (v i i' : Nat) (hw : Latch) (mc : MC) :
    (mc.measure cfg v i i' hw).targetAngle = mc.targetAngle := by
  simp [MC.measure]
@[simp] theorem measure_haveTarget (cfg : Cfg) (v i i' : Nat) (hw : Latch) (mc : MC) :
    (mc.measure cfg v i i' hw).haveTarget = mc.haveTarget := by
  simp [MC.measure]
@[simp] theorem measure_currentAngle (cfg : Cfg) (v i i' : Nat) (hw : Latch) (mc : MC) :
    (mc.measure cfg v i i' hw).currentAngle = mc.currentAngle := by
  simp [MC.measure]
@[simp] theorem measure_hardStop (cfg : Cfg) (v i i' : Nat) (hw : Latch) (mc : MC) :
    (mc.measure cfg v i i' hw).hardStop = mc.hardStop := by
  simp [MC.measure]
@[simp] theorem measure_dir (cfg : Cfg) (v i i' : Nat) (hw : Latch) (mc : MC) : (mc.measure cfg v i i' hw).dir = mc.dir := by
  simp [MC.measure]
@[simp] theorem measure_duty (cfg : Cfg) (v i i' : Nat) (hw : Latch) (mc : MC) :
    (mc.measure cfg v i i' hw).duty = mc.duty := by
  simp [MC.measure]
@[simp] theorem measure_dutySaved (cfg : Cfg) (v i i' : Nat) (hw : Latch) (mc : MC) :
    (mc.measure cfg v i i' hw).dutySaved = mc.dutySaved := by
  simp [MC.measure]
@[simp] theorem measure_restore (cfg : Cfg) (v i i' : Nat) (hw : Latch) (mc : MC) :
    (mc.measure cfg v i i' hw).restore = mc.restore := by
  simp [MC.measure]
@[simp] theorem measure_restoreCnt (cfg : Cfg) (v i i' : Nat) (hw : Latch) (mc : MC) :
    (mc.measure cfg v i i' hw).restoreCnt = mc.restoreCnt := by
  simp [MC.measure]
@[simp] theorem measure_enTimer (cfg : Cfg) (v i i' : Nat) (hw : Latch) (mc : MC) :
    (mc.measure cfg v i i' hw).enTimer = mc.enTimer := by
  simp [MC.measure]

/-! ### Frame of `MC.elapsed` (R188) -/

@[simp] theorem countElapsed_mstate (took : Option MotorState) (mc : MC) : (mc.countElapsed took).mstate = mc.mstate := by
  simp only [MC.countElapsed]; split <;> rfl
@[simp] theorem countElapsed_initStatus (took : Option MotorState) (mc : MC) :
    (mc.countElapsed took).initStatus = mc.initStatus := by
  simp only [MC.countElapsed]; split <;> rfl
@[simp] theorem countElapsed_targetAngle (took : Option MotorState) (mc : MC) :
    (mc.countElapsed took).targetAngle = mc.targetAngle := by
  simp only [MC.countElapsed]; split <;> rfl
@[simp] theorem countElapsed_haveTarget (took : Option MotorState) (mc : MC) :
    (mc.countElapsed took).haveTarget = mc.haveTarget := by
  simp only [MC.countElapsed]; split <;> rfl
@[simp] theorem countElapsed_currentAngle (took : Option MotorState) (mc : MC) :
    (mc.countElapsed took).currentAngle = mc.currentAngle := by
  simp only [MC.countElapsed]; split <;> rfl
@[simp] theorem countElapsed_hardStop (took : Option MotorState) (mc : MC) :
    (mc.countElapsed took).hardStop = mc.hardStop := by
  simp only [MC.countElapsed]; split <;> rfl
@[simp] theorem countElapsed_moveReq (took : Option MotorState) (mc : MC) : (mc.countElapsed took).moveReq = mc.moveReq := by
  simp only [MC.countElapsed]; split <;> rfl
@[simp] theorem countElapsed_posReached (took : Option MotorState) (mc : MC) :
    (mc.countElapsed took).posReached = mc.posReached := by
  simp only [MC.countElapsed]; split <;> rfl
@[simp] theorem countElapsed_dir (took : Option MotorState) (mc : MC) : (mc.countElapsed took).dir = mc.dir := by
  simp only [MC.countElapsed]; split <;> rfl
@[simp] theorem countElapsed_duty (took : Option MotorState) (mc : MC) : (mc.countElapsed took).duty = mc.duty := by
  simp only [MC.countElapsed]; split <;> rfl
@[simp] theorem countElapsed_outEn (took : Option MotorState) (mc : MC) : (mc.countElapsed took).outEn = mc.outEn := by
  simp only [MC.countElapsed]; split <;> rfl
@[simp] theorem countElapsed_dutySaved (took : Option MotorState) (mc : MC) :
    (mc.countElapsed took).dutySaved = mc.dutySaved := by
  simp only [MC.countElapsed]; split <;> rfl
@[simp] theorem countElapsed_restore (took : Option MotorState) (mc : MC) : (mc.countElapsed took).restore = mc.restore := by
  simp only [MC.countElapsed]; split <;> rfl
@[simp] theorem countElapsed_restoreCnt (took : Option MotorState) (mc : MC) :
    (mc.countElapsed took).restoreCnt = mc.restoreCnt := by
  simp only [MC.countElapsed]; split <;> rfl
@[simp] theorem countElapsed_enTimer (took : Option MotorState) (mc : MC) : (mc.countElapsed took).enTimer = mc.enTimer := by
  simp only [MC.countElapsed]; split <;> rfl
@[simp] theorem countElapsed_winCnt (took : Option MotorState) (mc : MC) : (mc.countElapsed took).winCnt = mc.winCnt := by
  simp only [MC.countElapsed]; split <;> rfl
@[simp] theorem countElapsed_refAngle (took : Option MotorState) (mc : MC) :
    (mc.countElapsed took).refAngle = mc.refAngle := by
  simp only [MC.countElapsed]; split <;> rfl
@[simp] theorem countElapsed_motionDelta (took : Option MotorState) (mc : MC) :
    (mc.countElapsed took).motionDelta = mc.motionDelta := by
  simp only [MC.countElapsed]; split <;> rfl
@[simp] theorem countElapsed_thrHalf (took : Option MotorState) (mc : MC) : (mc.countElapsed took).thrHalf = mc.thrHalf := by
  simp only [MC.countElapsed]; split <;> rfl
@[simp] theorem countElapsed_thrFull (took : Option MotorState) (mc : MC) : (mc.countElapsed took).thrFull = mc.thrFull := by
  simp only [MC.countElapsed]; split <;> rfl
@[simp] theorem countElapsed_minDuty (took : Option MotorState) (mc : MC) : (mc.countElapsed took).minDuty = mc.minDuty := by
  simp only [MC.countElapsed]; split <;> rfl
@[simp] theorem countElapsed_obstrCnt (took : Option MotorState) (mc : MC) :
    (mc.countElapsed took).obstrCnt = mc.obstrCnt := by
  simp only [MC.countElapsed]; split <;> rfl
@[simp] theorem countElapsed_stallCnt (took : Option MotorState) (mc : MC) :
    (mc.countElapsed took).stallCnt = mc.stallCnt := by
  simp only [MC.countElapsed]; split <;> rfl
@[simp] theorem countElapsed_openCnt (took : Option MotorState) (mc : MC) : (mc.countElapsed took).openCnt = mc.openCnt := by
  simp only [MC.countElapsed]; split <;> rfl
@[simp] theorem countElapsed_shortCnt (took : Option MotorState) (mc : MC) :
    (mc.countElapsed took).shortCnt = mc.shortCnt := by
  simp only [MC.countElapsed]; split <;> rfl
@[simp] theorem countElapsed_ocCnt (took : Option MotorState) (mc : MC) : (mc.countElapsed took).ocCnt = mc.ocCnt := by
  simp only [MC.countElapsed]; split <;> rfl
@[simp] theorem countElapsed_stallFlags (took : Option MotorState) (mc : MC) :
    (mc.countElapsed took).stallFlags = mc.stallFlags := by
  simp only [MC.countElapsed]; split <;> rfl
@[simp] theorem countElapsed_faultFlags (took : Option MotorState) (mc : MC) :
    (mc.countElapsed took).faultFlags = mc.faultFlags := by
  simp only [MC.countElapsed]; split <;> rfl

/-! ### Frame of `MC.enTimer` (R187) -/

@[simp] theorem countEnabled_mstate (took : Option MotorState) (mc : MC) : (mc.countEnabled took).mstate = mc.mstate := by
  simp only [MC.countEnabled]; split <;> rfl
@[simp] theorem countEnabled_initStatus (took : Option MotorState) (mc : MC) :
    (mc.countEnabled took).initStatus = mc.initStatus := by
  simp only [MC.countEnabled]; split <;> rfl
@[simp] theorem countEnabled_elapsed (took : Option MotorState) (mc : MC) : (mc.countEnabled took).elapsed = mc.elapsed := by
  simp only [MC.countEnabled]; split <;> rfl
@[simp] theorem countEnabled_targetAngle (took : Option MotorState) (mc : MC) :
    (mc.countEnabled took).targetAngle = mc.targetAngle := by
  simp only [MC.countEnabled]; split <;> rfl
@[simp] theorem countEnabled_haveTarget (took : Option MotorState) (mc : MC) :
    (mc.countEnabled took).haveTarget = mc.haveTarget := by
  simp only [MC.countEnabled]; split <;> rfl
@[simp] theorem countEnabled_currentAngle (took : Option MotorState) (mc : MC) :
    (mc.countEnabled took).currentAngle = mc.currentAngle := by
  simp only [MC.countEnabled]; split <;> rfl
@[simp] theorem countEnabled_hardStop (took : Option MotorState) (mc : MC) :
    (mc.countEnabled took).hardStop = mc.hardStop := by
  simp only [MC.countEnabled]; split <;> rfl
@[simp] theorem countEnabled_moveReq (took : Option MotorState) (mc : MC) : (mc.countEnabled took).moveReq = mc.moveReq := by
  simp only [MC.countEnabled]; split <;> rfl
@[simp] theorem countEnabled_posReached (took : Option MotorState) (mc : MC) :
    (mc.countEnabled took).posReached = mc.posReached := by
  simp only [MC.countEnabled]; split <;> rfl
@[simp] theorem countEnabled_dir (took : Option MotorState) (mc : MC) : (mc.countEnabled took).dir = mc.dir := by
  simp only [MC.countEnabled]; split <;> rfl
@[simp] theorem countEnabled_duty (took : Option MotorState) (mc : MC) : (mc.countEnabled took).duty = mc.duty := by
  simp only [MC.countEnabled]; split <;> rfl
@[simp] theorem countEnabled_outEn (took : Option MotorState) (mc : MC) : (mc.countEnabled took).outEn = mc.outEn := by
  simp only [MC.countEnabled]; split <;> rfl
@[simp] theorem countEnabled_dutySaved (took : Option MotorState) (mc : MC) :
    (mc.countEnabled took).dutySaved = mc.dutySaved := by
  simp only [MC.countEnabled]; split <;> rfl
@[simp] theorem countEnabled_restore (took : Option MotorState) (mc : MC) : (mc.countEnabled took).restore = mc.restore := by
  simp only [MC.countEnabled]; split <;> rfl
@[simp] theorem countEnabled_restoreCnt (took : Option MotorState) (mc : MC) :
    (mc.countEnabled took).restoreCnt = mc.restoreCnt := by
  simp only [MC.countEnabled]; split <;> rfl
@[simp] theorem countEnabled_winCnt (took : Option MotorState) (mc : MC) : (mc.countEnabled took).winCnt = mc.winCnt := by
  simp only [MC.countEnabled]; split <;> rfl
@[simp] theorem countEnabled_refAngle (took : Option MotorState) (mc : MC) :
    (mc.countEnabled took).refAngle = mc.refAngle := by
  simp only [MC.countEnabled]; split <;> rfl
@[simp] theorem countEnabled_motionDelta (took : Option MotorState) (mc : MC) :
    (mc.countEnabled took).motionDelta = mc.motionDelta := by
  simp only [MC.countEnabled]; split <;> rfl
@[simp] theorem countEnabled_thrHalf (took : Option MotorState) (mc : MC) : (mc.countEnabled took).thrHalf = mc.thrHalf := by
  simp only [MC.countEnabled]; split <;> rfl
@[simp] theorem countEnabled_thrFull (took : Option MotorState) (mc : MC) : (mc.countEnabled took).thrFull = mc.thrFull := by
  simp only [MC.countEnabled]; split <;> rfl
@[simp] theorem countEnabled_minDuty (took : Option MotorState) (mc : MC) : (mc.countEnabled took).minDuty = mc.minDuty := by
  simp only [MC.countEnabled]; split <;> rfl
@[simp] theorem countEnabled_obstrCnt (took : Option MotorState) (mc : MC) :
    (mc.countEnabled took).obstrCnt = mc.obstrCnt := by
  simp only [MC.countEnabled]; split <;> rfl
@[simp] theorem countEnabled_stallCnt (took : Option MotorState) (mc : MC) :
    (mc.countEnabled took).stallCnt = mc.stallCnt := by
  simp only [MC.countEnabled]; split <;> rfl
@[simp] theorem countEnabled_openCnt (took : Option MotorState) (mc : MC) : (mc.countEnabled took).openCnt = mc.openCnt := by
  simp only [MC.countEnabled]; split <;> rfl
@[simp] theorem countEnabled_shortCnt (took : Option MotorState) (mc : MC) :
    (mc.countEnabled took).shortCnt = mc.shortCnt := by
  simp only [MC.countEnabled]; split <;> rfl
@[simp] theorem countEnabled_ocCnt (took : Option MotorState) (mc : MC) : (mc.countEnabled took).ocCnt = mc.ocCnt := by
  simp only [MC.countEnabled]; split <;> rfl
@[simp] theorem countEnabled_stallFlags (took : Option MotorState) (mc : MC) :
    (mc.countEnabled took).stallFlags = mc.stallFlags := by
  simp only [MC.countEnabled]; split <;> rfl
@[simp] theorem countEnabled_faultFlags (took : Option MotorState) (mc : MC) :
    (mc.countEnabled took).faultFlags = mc.faultFlags := by
  simp only [MC.countEnabled]; split <;> rfl

/-! ### Frame of `enter` (R186) -/

@[simp] theorem enter_initStatus (cfg : Cfg) (d : Int) (target : MotorState) (mc : MC) :
    (mc.enter cfg d target).initStatus = mc.initStatus := by
  cases target <;> rfl
@[simp] theorem enter_targetAngle (cfg : Cfg) (d : Int) (target : MotorState) (mc : MC) :
    (mc.enter cfg d target).targetAngle = mc.targetAngle := by
  cases target <;> rfl
@[simp] theorem enter_haveTarget (cfg : Cfg) (d : Int) (target : MotorState) (mc : MC) :
    (mc.enter cfg d target).haveTarget = mc.haveTarget := by
  cases target <;> rfl
@[simp] theorem enter_currentAngle (cfg : Cfg) (d : Int) (target : MotorState) (mc : MC) :
    (mc.enter cfg d target).currentAngle = mc.currentAngle := by
  cases target <;> rfl
@[simp] theorem enter_hardStop (cfg : Cfg) (d : Int) (target : MotorState) (mc : MC) :
    (mc.enter cfg d target).hardStop = mc.hardStop := by
  cases target <;> rfl
@[simp] theorem enter_moveReq (cfg : Cfg) (d : Int) (target : MotorState) (mc : MC) :
    (mc.enter cfg d target).moveReq = mc.moveReq := by
  cases target <;> rfl
@[simp] theorem enter_posReached (cfg : Cfg) (d : Int) (target : MotorState) (mc : MC) :
    (mc.enter cfg d target).posReached = mc.posReached := by
  cases target <;> rfl
@[simp] theorem enter_winCnt (cfg : Cfg) (d : Int) (target : MotorState) (mc : MC) :
    (mc.enter cfg d target).winCnt = mc.winCnt := by
  cases target <;> rfl
@[simp] theorem enter_refAngle (cfg : Cfg) (d : Int) (target : MotorState) (mc : MC) :
    (mc.enter cfg d target).refAngle = mc.refAngle := by
  cases target <;> rfl
@[simp] theorem enter_motionDelta (cfg : Cfg) (d : Int) (target : MotorState) (mc : MC) :
    (mc.enter cfg d target).motionDelta = mc.motionDelta := by
  cases target <;> rfl
@[simp] theorem enter_thrHalf (cfg : Cfg) (d : Int) (target : MotorState) (mc : MC) :
    (mc.enter cfg d target).thrHalf = mc.thrHalf := by
  cases target <;> rfl
@[simp] theorem enter_thrFull (cfg : Cfg) (d : Int) (target : MotorState) (mc : MC) :
    (mc.enter cfg d target).thrFull = mc.thrFull := by
  cases target <;> rfl
@[simp] theorem enter_minDuty (cfg : Cfg) (d : Int) (target : MotorState) (mc : MC) :
    (mc.enter cfg d target).minDuty = mc.minDuty := by
  cases target <;> rfl
@[simp] theorem enter_obstrCnt (cfg : Cfg) (d : Int) (target : MotorState) (mc : MC) :
    (mc.enter cfg d target).obstrCnt = mc.obstrCnt := by
  cases target <;> rfl
@[simp] theorem enter_stallCnt (cfg : Cfg) (d : Int) (target : MotorState) (mc : MC) :
    (mc.enter cfg d target).stallCnt = mc.stallCnt := by
  cases target <;> rfl
@[simp] theorem enter_openCnt (cfg : Cfg) (d : Int) (target : MotorState) (mc : MC) :
    (mc.enter cfg d target).openCnt = mc.openCnt := by
  cases target <;> rfl
@[simp] theorem enter_shortCnt (cfg : Cfg) (d : Int) (target : MotorState) (mc : MC) :
    (mc.enter cfg d target).shortCnt = mc.shortCnt := by
  cases target <;> rfl
@[simp] theorem enter_ocCnt (cfg : Cfg) (d : Int) (target : MotorState) (mc : MC) :
    (mc.enter cfg d target).ocCnt = mc.ocCnt := by
  cases target <;> rfl
@[simp] theorem enter_stallFlags (cfg : Cfg) (d : Int) (target : MotorState) (mc : MC) :
    (mc.enter cfg d target).stallFlags = mc.stallFlags := by
  cases target <;> rfl
@[simp] theorem enter_faultFlags (cfg : Cfg) (d : Int) (target : MotorState) (mc : MC) :
    (mc.enter cfg d target).faultFlags = mc.faultFlags := by
  cases target <;> rfl

/-! ### Frame of `RAMP` (R210) -/

@[simp] theorem ramp_mstate (cfg : Cfg) (mc : MC) : (mc.ramp cfg).mstate = mc.mstate := by
  simp only [MC.ramp]; split <;> rfl
@[simp] theorem ramp_initStatus (cfg : Cfg) (mc : MC) : (mc.ramp cfg).initStatus = mc.initStatus := by
  simp only [MC.ramp]; split <;> rfl
@[simp] theorem ramp_elapsed (cfg : Cfg) (mc : MC) : (mc.ramp cfg).elapsed = mc.elapsed := by
  simp only [MC.ramp]; split <;> rfl
@[simp] theorem ramp_targetAngle (cfg : Cfg) (mc : MC) : (mc.ramp cfg).targetAngle = mc.targetAngle := by
  simp only [MC.ramp]; split <;> rfl
@[simp] theorem ramp_haveTarget (cfg : Cfg) (mc : MC) : (mc.ramp cfg).haveTarget = mc.haveTarget := by
  simp only [MC.ramp]; split <;> rfl
@[simp] theorem ramp_currentAngle (cfg : Cfg) (mc : MC) : (mc.ramp cfg).currentAngle = mc.currentAngle := by
  simp only [MC.ramp]; split <;> rfl
@[simp] theorem ramp_hardStop (cfg : Cfg) (mc : MC) : (mc.ramp cfg).hardStop = mc.hardStop := by
  simp only [MC.ramp]; split <;> rfl
@[simp] theorem ramp_moveReq (cfg : Cfg) (mc : MC) : (mc.ramp cfg).moveReq = mc.moveReq := by
  simp only [MC.ramp]; split <;> rfl
@[simp] theorem ramp_posReached (cfg : Cfg) (mc : MC) : (mc.ramp cfg).posReached = mc.posReached := by
  simp only [MC.ramp]; split <;> rfl
@[simp] theorem ramp_dir (cfg : Cfg) (mc : MC) : (mc.ramp cfg).dir = mc.dir := by simp only [MC.ramp]; split <;> rfl
@[simp] theorem ramp_outEn (cfg : Cfg) (mc : MC) : (mc.ramp cfg).outEn = mc.outEn := by
  simp only [MC.ramp]; split <;> rfl
@[simp] theorem ramp_dutySaved (cfg : Cfg) (mc : MC) : (mc.ramp cfg).dutySaved = mc.dutySaved := by
  simp only [MC.ramp]; split <;> rfl
@[simp] theorem ramp_restore (cfg : Cfg) (mc : MC) : (mc.ramp cfg).restore = mc.restore := by
  simp only [MC.ramp]; split <;> rfl
@[simp] theorem ramp_restoreCnt (cfg : Cfg) (mc : MC) : (mc.ramp cfg).restoreCnt = mc.restoreCnt := by
  simp only [MC.ramp]; split <;> rfl
@[simp] theorem ramp_enTimer (cfg : Cfg) (mc : MC) : (mc.ramp cfg).enTimer = mc.enTimer := by
  simp only [MC.ramp]; split <;> rfl
@[simp] theorem ramp_winCnt (cfg : Cfg) (mc : MC) : (mc.ramp cfg).winCnt = mc.winCnt := by
  simp only [MC.ramp]; split <;> rfl
@[simp] theorem ramp_refAngle (cfg : Cfg) (mc : MC) : (mc.ramp cfg).refAngle = mc.refAngle := by
  simp only [MC.ramp]; split <;> rfl
@[simp] theorem ramp_motionDelta (cfg : Cfg) (mc : MC) : (mc.ramp cfg).motionDelta = mc.motionDelta := by
  simp only [MC.ramp]; split <;> rfl
@[simp] theorem ramp_thrHalf (cfg : Cfg) (mc : MC) : (mc.ramp cfg).thrHalf = mc.thrHalf := by
  simp only [MC.ramp]; split <;> rfl
@[simp] theorem ramp_thrFull (cfg : Cfg) (mc : MC) : (mc.ramp cfg).thrFull = mc.thrFull := by
  simp only [MC.ramp]; split <;> rfl
@[simp] theorem ramp_minDuty (cfg : Cfg) (mc : MC) : (mc.ramp cfg).minDuty = mc.minDuty := by
  simp only [MC.ramp]; split <;> rfl
@[simp] theorem ramp_obstrCnt (cfg : Cfg) (mc : MC) : (mc.ramp cfg).obstrCnt = mc.obstrCnt := by
  simp only [MC.ramp]; split <;> rfl
@[simp] theorem ramp_stallCnt (cfg : Cfg) (mc : MC) : (mc.ramp cfg).stallCnt = mc.stallCnt := by
  simp only [MC.ramp]; split <;> rfl
@[simp] theorem ramp_openCnt (cfg : Cfg) (mc : MC) : (mc.ramp cfg).openCnt = mc.openCnt := by
  simp only [MC.ramp]; split <;> rfl
@[simp] theorem ramp_shortCnt (cfg : Cfg) (mc : MC) : (mc.ramp cfg).shortCnt = mc.shortCnt := by
  simp only [MC.ramp]; split <;> rfl
@[simp] theorem ramp_ocCnt (cfg : Cfg) (mc : MC) : (mc.ramp cfg).ocCnt = mc.ocCnt := by
  simp only [MC.ramp]; split <;> rfl
@[simp] theorem ramp_stallFlags (cfg : Cfg) (mc : MC) : (mc.ramp cfg).stallFlags = mc.stallFlags := by
  simp only [MC.ramp]; split <;> rfl
@[simp] theorem ramp_faultFlags (cfg : Cfg) (mc : MC) : (mc.ramp cfg).faultFlags = mc.faultFlags := by
  simp only [MC.ramp]; split <;> rfl

end Sys2Proof.Machine
end

