-- ==== Sys2Proof/Laws/Motor.lean ====
section
/-! SUPPORT. The motor tick taken apart: what each sub-step leaves in the registers it writes, every move of the state
machine, and the whole tick (R180 to R209). -/

namespace Sys2Proof.Machine

/-! ### Measurements (R183, R184, R190) -/

theorem observe_window_end (cfg : Cfg) (mc : MC) (h : cfg.MOTION_WIN ≤ mc.winCnt.toNat + 1) :
    (mc.observe cfg).winCnt = 0 ∧ (mc.observe cfg).refAngle = mc.currentAngle ∧
    (mc.observe cfg).motionDelta.toNat = ((mc.currentAngle.toNat : Int) - (mc.refAngle.toNat : Int)).natAbs := by
  simp only [MC.observe, h, if_true]
  exact ⟨trivial, trivial, adiff_toAngle _ _⟩

theorem observe_inside_window (cfg : Cfg) (mc : MC) (h : mc.winCnt.toNat + 1 < cfg.MOTION_WIN) :
    (mc.observe cfg).winCnt = mc.winCnt + 1 ∧ (mc.observe cfg).refAngle = mc.refAngle ∧
    (mc.observe cfg).motionDelta = mc.motionDelta := by
  have h' : ¬ cfg.MOTION_WIN ≤ mc.winCnt.toNat + 1 := by omega
  simp only [MC.observe, h', if_false, and_true]
  apply BitVec.eq_of_toNat_eq
  simp [toWord]

theorem reached_outEn (cfg : Cfg) (dist : Nat) (mc : MC) :
    (mc.reached cfg dist).outEn = (mc.outEn && decide (cfg.OFF_HYST < dist)) := by
  by_cases h : dist ≤ cfg.OFF_HYST
  · have h' : ¬ cfg.OFF_HYST < dist := by omega
    simp [MC.reached, h, h']
  · have h' : cfg.OFF_HYST < dist := by omega
    simp [MC.reached, h, h']

theorem reached_posReached (cfg : Cfg) (dist : Nat) (mc : MC) :
    (mc.reached cfg dist).posReached = (mc.posReached || decide (dist ≤ cfg.OFF_HYST)) := by
  by_cases h : dist ≤ cfg.OFF_HYST <;> simp [MC.reached, h]

theorem reached_moveReq (cfg : Cfg) (dist : Nat) (mc : MC) :
    (mc.reached cfg dist).moveReq = (mc.moveReq && decide (cfg.OFF_HYST < dist)) := by
  by_cases h : dist ≤ cfg.OFF_HYST
  · have h' : ¬ cfg.OFF_HYST < dist := by omega
    simp [MC.reached, h, h']
  · have h' : cfg.OFF_HYST < dist := by omega
    simp [MC.reached, h, h']

theorem lookup_driven (cfg : Cfg) (v : Nat) (mc : MC) (h : mc.outEn = true) : mc.lookup cfg v = mc := by
  simp [MC.lookup, h]

theorem lookup_idle (cfg : Cfg) (v : Nat) (mc : MC) (h : mc.outEn = false) :
    (mc.lookup cfg v).thrHalf = toWord (vlookup cfg.VTAB v).half ∧
    (mc.lookup cfg v).thrFull = toWord (vlookup cfg.VTAB v).full ∧
    (mc.lookup cfg v).minDuty = toWord (vlookup cfg.VTAB v).minDuty := by
  simp [MC.lookup, h]

section Measure
variable (cfg : Cfg) (v i i' : Nat) (hw : Latch) (mc : MC)

theorem measure_motionDelta : (mc.measure cfg v i i' hw).motionDelta = (mc.observe cfg).motionDelta := by
  simp [MC.measure]

theorem measure_refAngle : (mc.measure cfg v i i' hw).refAngle = (mc.observe cfg).refAngle := by simp [MC.measure]

theorem measure_winCnt : (mc.measure cfg v i i' hw).winCnt = (mc.observe cfg).winCnt := by simp [MC.measure]

theorem measure_thresholds :
    (mc.measure cfg v i i' hw).thrHalf = (mc.lookup cfg v).thrHalf ∧
    (mc.measure cfg v i i' hw).thrFull = (mc.lookup cfg v).thrFull ∧
    (mc.measure cfg v i i' hw).minDuty = (mc.lookup cfg v).minDuty := by
  simp only [MC.measure, faultDet_thrHalf, stallDet_thrHalf, reached_thrHalf, faultDet_thrFull, stallDet_thrFull,
    reached_thrFull, faultDet_minDuty, stallDet_minDuty, reached_minDuty]
  simp only [MC.lookup, observe_outEn]
  split <;> simp

theorem measure_outEn :
    (mc.measure cfg v i i' hw).outEn = (mc.outEn && decide (cfg.OFF_HYST < mc.travel.natAbs)) := by
  simp [MC.measure, reached_outEn]

theorem measure_posReached :
    (mc.measure cfg v i i' hw).posReached = (mc.posReached || decide (mc.travel.natAbs ≤ cfg.OFF_HYST)) := by
  simp [MC.measure, reached_posReached]

theorem measure_moveReq :
    (mc.measure cfg v i i' hw).moveReq = (mc.moveReq && decide (cfg.OFF_HYST < mc.travel.natAbs)) := by
  simp [MC.measure, reached_moveReq]

theorem measure_travel : (mc.measure cfg v i i' hw).travel = mc.travel := by simp [MC.travel]

theorem measure_reversal (d : Int) : (mc.measure cfg v i i' hw).reversal d = mc.reversal d := by simp [MC.reversal]

/-! ### Detectors (R193 to R198) -/

/-- What the two stall detectors read and write. -/
theorem measure_stall :
    let m := mc.measure cfg v i i' hw
    let active := m.outEn && decide (cfg.STALL_MASK_TICKS ≤ mc.enTimer.toNat)
    let low := detect active (decide (m.thrHalf.toNat ≤ i) && m.motionLow cfg) cfg.OBSTR_TRIP mc.obstrCnt
    let stop := detect active (decide (m.thrFull.toNat ≤ i) && m.motionStopped cfg) cfg.STALL_TRIP mc.stallCnt
    m.obstrCnt = low.1 ∧ m.stallCnt = stop.1 ∧
    m.stallFlags = setIf (setIf mc.stallFlags stallTemporary low.2) stallPermanent stop.2 := by
  simp [MC.measure, MC.stallDet, MC.obstruction, MC.stall, MC.stallActive, MC.motionLow, MC.motionStopped]

/-- What the three electrical-fault detectors read and write. -/
theorem measure_fault :
    let m := mc.measure cfg v i i' hw
    let dry := detect (cfg.FAULT_EN.getLsbD 0 && m.outEn) (decide (i ≤ cfg.OPEN_I_MAX)) cfg.OPEN_TRIP mc.openCnt
    let shorted := detect (cfg.FAULT_EN.getLsbD 1) (hw.getLsbD 4) cfg.SHORT_TRIP mc.shortCnt
    let high := detect (cfg.FAULT_EN.getLsbD 2 && m.outEn) (decide (cfg.OC_CEILING ≤ i')) cfg.OC_TRIP mc.ocCnt
    m.openCnt = dry.1 ∧ m.shortCnt = shorted.1 ∧ m.ocCnt = high.1 ∧
    m.faultFlags =
      setIf (setIf (setIf mc.faultFlags faultOpenPhase dry.2) faultShort shorted.2) faultOverCurrent high.2 := by
  simp only [MC.measure, MC.faultDet, MC.openPhase, MC.short, MC.overCurrent, hasBit_faultOpenPhase, hasBit_faultShort,
    hasBit_faultOverCurrent, hasBit_latchVDS]
  simp

/-- A tick never clears a stall flag. -/
theorem measure_stallFlags_keeps (b : Nat) (h : mc.stallFlags.getLsbD b = true) :
    (mc.measure cfg v i i' hw).stallFlags.getLsbD b = true := by
  rw [(measure_stall cfg v i i' hw mc).2.2]; simp only [getLsbD_setIf, h, Bool.true_or]

/-- A tick never clears a fault flag. -/
theorem measure_faultFlags_keeps (b : Nat) (h : mc.faultFlags.getLsbD b = true) :
    (mc.measure cfg v i i' hw).faultFlags.getLsbD b = true := by
  rw [(measure_fault cfg v i i' hw mc).2.2.2]; simp only [getLsbD_setIf, h, Bool.true_or]

/-- With the output off after the position test the stall flags do not change. -/
theorem measure_stallFlags_idle (h : (mc.measure cfg v i i' hw).outEn = false) :
    (mc.measure cfg v i i' hw).stallFlags = mc.stallFlags := by
  rw [(measure_stall cfg v i i' hw mc).2.2]; simp [h, setIf]

/-- With the output off and no short pending the fault flags do not change. -/
theorem measure_faultFlags_idle (h : (mc.measure cfg v i i' hw).outEn = false) (h' : hw.getLsbD 4 = false) :
    (mc.measure cfg v i i' hw).faultFlags = mc.faultFlags := by
  rw [(measure_fault cfg v i i' hw mc).2.2.2]
  simp only [h, h', Bool.and_false, detect_disabled]
  cases cfg.FAULT_EN.getLsbD 1 <;> simp [detect, setIf]

end Measure

/-! ### The state machine (R200 to R209) -/

section Machine
variable (cfg : Cfg) (d : Int) (dist : Nat) (mc : MC)

theorem goTo_eq (target : MotorState) : mc.goTo cfg d target = (mc.enter cfg d target, some target) := rfl

@[simp] theorem enter_mstate (target : MotorState) : (mc.enter cfg d target).mstate = target := by cases target <;> rfl

@[simp] theorem enter_elapsed (target : MotorState) : (mc.enter cfg d target).elapsed = 0 := by cases target <;> rfl

@[simp] theorem enter_restore (target : MotorState) : (mc.enter cfg d target).restore = false := by cases target <;> rfl

@[simp] theorem enter_restoreCnt (target : MotorState) : (mc.enter cfg d target).restoreCnt = 0 := by
  cases target <;> rfl

/-- Fault comes before everything (R201). -/
theorem sm_fault (h : mc.faultFlags ≠ 0) (h' : mc.mstate ≠ .fault) : mc.sm cfg d dist = mc.goTo cfg d .fault := by
  simp only [MC.sm]; rw [if_pos ⟨h, h'⟩]

/-- Stalled comes before the state's own exits (R201). -/
theorem sm_stalled (h : mc.faultFlags = 0) (h' : mc.stallFlags ≠ 0) (hs : mc.mstate ≠ .stalled)
    (hf : mc.mstate ≠ .fault) : mc.sm cfg d dist = mc.goTo cfg d .stalled := by
  simp only [MC.sm]; rw [if_neg (fun x => x.1 h), if_pos ⟨h', h, hs, hf⟩]

/-- With no flag set the state's own exits decide. -/
theorem sm_own (h : mc.faultFlags = 0) (h' : mc.stallFlags = 0) :
    mc.sm cfg d dist =
      match mc.mstate with
      | .init => (mc, none)
      | .stopped => mc.smStopped cfg d
      | .accelerating => mc.smAccelerating cfg d dist
      | .running => mc.smRunning cfg d dist
      | .decelerating => mc.smDecelerating cfg d dist
      | .paused => mc.smPaused cfg d
      | .stalled => mc.smStalled cfg d
      | .fault => mc.smFault cfg d := by
  have h1 : ¬ (mc.faultFlags ≠ 0 ∧ mc.mstate ≠ .fault) := fun x => x.1 h
  have h2 : ¬ (mc.stallFlags ≠ 0 ∧ mc.faultFlags = 0 ∧ mc.mstate ≠ .stalled ∧ mc.mstate ≠ .fault) := fun x => x.1 h'
  cases hm : mc.mstate <;> rw [hm] at h1 h2 <;> simp only [MC.sm, hm, h1, h2, if_false]

/-- The state Fault is left on its own flags only. -/
theorem sm_in_fault (h : mc.mstate = .fault) : mc.sm cfg d dist = mc.smFault cfg d := by
  simp only [MC.sm, h]; rw [if_neg (fun x => x.2 rfl), if_neg (fun x => x.2.2.2 rfl)]

/-- The state Stalled is left on its own flags only, when there is no fault. -/
theorem sm_in_stalled (h : mc.mstate = .stalled) (h' : mc.faultFlags = 0) :
    mc.sm cfg d dist = mc.smStalled cfg d := by
  simp only [MC.sm, h]; rw [if_neg (fun x => x.1 h'), if_neg (fun x => x.2.2.1 rfl)]

/-- The pairs of states that the state machine can join. -/
def legalMove (a b : MotorState) : Bool :=
  match a, b with
  | _, .init => false
  | .init, .fault => true
  | .init, .stalled => true
  | .init, _ => false
  | a, .fault => a != .fault
  | a, .stalled => a != .stalled && a != .fault
  | a, .stopped => a != .stopped
  | a, .accelerating => a == .stopped
  | a, .running => a == .accelerating
  | a, .decelerating => a == .accelerating || a == .running
  | a, .paused => a == .running || a == .decelerating

/-- Everything the state machine can do: one legal transition, or none; and with none it writes only the duty and the
restore phase, and those in Decelerating only. -/
theorem sm_cases :
    (∃ target, mc.sm cfg d dist = (mc.enter cfg d target, some target) ∧ legalMove mc.mstate target = true) ∨
    (∃ m', mc.sm cfg d dist = (m', none) ∧
      m' = { mc with duty := m'.duty, restore := m'.restore, restoreCnt := m'.restoreCnt } ∧
      (mc.mstate ≠ .decelerating → m' = mc)) := by
  simp only [MC.sm]
  split
  · rename_i h
    refine .inl ⟨_, rfl, ?_⟩
    revert h; cases mc.mstate <;> simp [legalMove]
  · split
    · rename_i h
      refine .inl ⟨_, rfl, ?_⟩
      revert h; cases mc.mstate <;> simp [legalMove]
    · split <;> rename_i hm <;>
        try simp only [MC.smStopped, MC.smAccelerating, MC.smRunning, MC.smDecelerating, MC.smPaused, MC.smStalled, MC.smFault]
      all_goals repeat' split
      all_goals first
        | exact .inl ⟨_, rfl, by rw [hm]; rfl⟩
        | exact .inr ⟨_, rfl, rfl, fun _ => rfl⟩
        | exact .inr ⟨_, rfl, rfl, fun h => absurd hm h⟩

end Machine

/-! ### The whole tick (R180, R181, R187, R188) -/

section Tick
variable (cfg : Cfg) (v i i' : Nat) (hw : Latch) (mc : MC)

theorem tick_init (h : mc.mstate = .init) :
    mc.tick cfg v i i' hw = { mc.enter cfg mc.travel .stopped with initStatus := true } := by
  simp only [MC.tick, h, if_true]

/-- A tick that takes no transition: the timers count on. -/
theorem tick_stays (h : mc.mstate ≠ .init) {m' : MC}
    (hs : (mc.measure cfg v i i' hw).sm cfg mc.travel mc.travel.natAbs = (m', none)) :
    mc.tick cfg v i i' hw =
      { m' with elapsed := satInc m'.elapsed, enTimer := if m'.outEn = true then satInc m'.enTimer else 0 } := by
  simp only [MC.tick, h, if_false, hs]
  simp [MC.countElapsed, MC.countEnabled]

/-- A tick that takes a transition: `MC.elapsed` starts at 0, and the enable timer is `enter`'s for Accelerating. -/
theorem tick_moves (h : mc.mstate ≠ .init) {m' : MC} {target : MotorState}
    (hs : (mc.measure cfg v i i' hw).sm cfg mc.travel mc.travel.natAbs = (m', some target)) :
    mc.tick cfg v i i' hw =
      { m' with enTimer := if target = .accelerating then m'.enTimer
                           else if m'.outEn = true then satInc m'.enTimer else 0 } := by
  simp only [MC.tick, h, if_false, hs]
  by_cases ht : target = .accelerating <;> simp [MC.countElapsed, MC.countEnabled, ht]

/-- Everything a tick outside `Init` can do: one legal transition on what the sub-steps measured, or none. -/
theorem tick_cases (h : mc.mstate ≠ .init) :
    let m := mc.measure cfg v i i' hw
    (∃ target, legalMove mc.mstate target = true ∧
      m.sm cfg mc.travel mc.travel.natAbs = (m.enter cfg mc.travel target, some target) ∧
      mc.tick cfg v i i' hw =
        { m.enter cfg mc.travel target with
          enTimer := if target = .accelerating then 0
                     else if (m.enter cfg mc.travel target).outEn = true then satInc mc.enTimer else 0 }) ∨
    (∃ m' : MC, m.sm cfg mc.travel mc.travel.natAbs = (m', none) ∧
      m' = { m with duty := m'.duty, restore := m'.restore, restoreCnt := m'.restoreCnt } ∧
      (mc.mstate ≠ .decelerating → m' = m) ∧
      mc.tick cfg v i i' hw =
        { m' with elapsed := satInc mc.elapsed, enTimer := if m.outEn = true then satInc mc.enTimer else 0 }) := by
  intro m
  obtain ⟨t, e, l⟩ | ⟨m', e, f, g⟩ := sm_cases cfg mc.travel mc.travel.natAbs m
  · refine .inl ⟨t, by rwa [measure_mstate] at l, e, ?_⟩
    rw [tick_moves _ _ _ _ _ _ h e]
    cases t <;> simp [MC.enter, m]
  · refine .inr ⟨m', e, f, by rwa [measure_mstate] at g, ?_⟩
    rw [tick_stays _ _ _ _ _ _ h e]
    have e1 : m'.elapsed = mc.elapsed := by rw [f]; simp [m]
    have e2 : m'.enTimer = mc.enTimer := by rw [f]; simp [m]
    have e3 : m'.outEn = m.outEn := by rw [f]
    rw [e1, e2, e3]

/-- The output enable after a tick, by the state it ends in (R27, R186): raised on entry to Accelerating, lowered on entry to
Stopped, Paused, Stalled or Fault, and left as the position-reached test left it in every other case. -/
theorem tick_outEn (h : mc.mstate ≠ .init) :
    (mc.tick cfg v i i' hw).outEn =
      if (mc.tick cfg v i i' hw).mstate = mc.mstate then mc.outEn && decide (cfg.OFF_HYST < mc.travel.natAbs)
      else
        match (mc.tick cfg v i i' hw).mstate with
        | .accelerating => true
        | .running | .decelerating | .init => mc.outEn && decide (cfg.OFF_HYST < mc.travel.natAbs)
        | .stopped | .paused | .stalled | .fault => false := by
  obtain ⟨t, l, _, e⟩ | ⟨m', _, f, _, e⟩ := tick_cases cfg v i i' hw mc h
  · have hne : t ≠ mc.mstate := by rintro rfl; revert l h; cases mc.mstate <;> simp [legalMove]
    rw [e]
    simp only [enter_mstate, hne, if_false]
    cases t <;> simp [MC.enter, measure_outEn]
  · rw [e, f]
    simp [measure_outEn]

/-! ### The registers that neither the state machine nor the timers write -/

theorem tick_targetAngle (h : mc.mstate ≠ .init) :
    (mc.tick cfg v i i' hw).targetAngle = (mc.measure cfg v i i' hw).targetAngle := by
  obtain ⟨t, _, _, e⟩ | ⟨m', _, f, _, e⟩ := tick_cases cfg v i i' hw mc h
  · rw [e]; simp
  · rw [e, f]

theorem tick_haveTarget (h : mc.mstate ≠ .init) :
    (mc.tick cfg v i i' hw).haveTarget = (mc.measure cfg v i i' hw).haveTarget := by
  obtain ⟨t, _, _, e⟩ | ⟨m', _, f, _, e⟩ := tick_cases cfg v i i' hw mc h
  · rw [e]; simp
  · rw [e, f]

theorem tick_currentAngle (h : mc.mstate ≠ .init) :
    (mc.tick cfg v i i' hw).currentAngle = (mc.measure cfg v i i' hw).currentAngle := by
  obtain ⟨t, _, _, e⟩ | ⟨m', _, f, _, e⟩ := tick_cases cfg v i i' hw mc h
  · rw [e]; simp
  · rw [e, f]

theorem tick_hardStop (h : mc.mstate ≠ .init) :
    (mc.tick cfg v i i' hw).hardStop = (mc.measure cfg v i i' hw).hardStop := by
  obtain ⟨t, _, _, e⟩ | ⟨m', _, f, _, e⟩ := tick_cases cfg v i i' hw mc h
  · rw [e]; simp
  · rw [e, f]

theorem tick_moveReq (h : mc.mstate ≠ .init) :
    (mc.tick cfg v i i' hw).moveReq = (mc.measure cfg v i i' hw).moveReq := by
  obtain ⟨t, _, _, e⟩ | ⟨m', _, f, _, e⟩ := tick_cases cfg v i i' hw mc h
  · rw [e]; simp
  · rw [e, f]

theorem tick_posReached (h : mc.mstate ≠ .init) :
    (mc.tick cfg v i i' hw).posReached = (mc.measure cfg v i i' hw).posReached := by
  obtain ⟨t, _, _, e⟩ | ⟨m', _, f, _, e⟩ := tick_cases cfg v i i' hw mc h
  · rw [e]; simp
  · rw [e, f]

theorem tick_winCnt (h : mc.mstate ≠ .init) :
    (mc.tick cfg v i i' hw).winCnt = (mc.measure cfg v i i' hw).winCnt := by
  obtain ⟨t, _, _, e⟩ | ⟨m', _, f, _, e⟩ := tick_cases cfg v i i' hw mc h
  · rw [e]; simp
  · rw [e, f]

theorem tick_refAngle (h : mc.mstate ≠ .init) :
    (mc.tick cfg v i i' hw).refAngle = (mc.measure cfg v i i' hw).refAngle := by
  obtain ⟨t, _, _, e⟩ | ⟨m', _, f, _, e⟩ := tick_cases cfg v i i' hw mc h
  · rw [e]; simp
  · rw [e, f]

theorem tick_motionDelta (h : mc.mstate ≠ .init) :
    (mc.tick cfg v i i' hw).motionDelta = (mc.measure cfg v i i' hw).motionDelta := by
  obtain ⟨t, _, _, e⟩ | ⟨m', _, f, _, e⟩ := tick_cases cfg v i i' hw mc h
  · rw [e]; simp
  · rw [e, f]

theorem tick_thrHalf (h : mc.mstate ≠ .init) :
    (mc.tick cfg v i i' hw).thrHalf = (mc.measure cfg v i i' hw).thrHalf := by
  obtain ⟨t, _, _, e⟩ | ⟨m', _, f, _, e⟩ := tick_cases cfg v i i' hw mc h
  · rw [e]; simp
  · rw [e, f]

theorem tick_thrFull (h : mc.mstate ≠ .init) :
    (mc.tick cfg v i i' hw).thrFull = (mc.measure cfg v i i' hw).thrFull := by
  obtain ⟨t, _, _, e⟩ | ⟨m', _, f, _, e⟩ := tick_cases cfg v i i' hw mc h
  · rw [e]; simp
  · rw [e, f]

theorem tick_minDuty (h : mc.mstate ≠ .init) :
    (mc.tick cfg v i i' hw).minDuty = (mc.measure cfg v i i' hw).minDuty := by
  obtain ⟨t, _, _, e⟩ | ⟨m', _, f, _, e⟩ := tick_cases cfg v i i' hw mc h
  · rw [e]; simp
  · rw [e, f]

theorem tick_obstrCnt (h : mc.mstate ≠ .init) :
    (mc.tick cfg v i i' hw).obstrCnt = (mc.measure cfg v i i' hw).obstrCnt := by
  obtain ⟨t, _, _, e⟩ | ⟨m', _, f, _, e⟩ := tick_cases cfg v i i' hw mc h
  · rw [e]; simp
  · rw [e, f]

theorem tick_stallCnt (h : mc.mstate ≠ .init) :
    (mc.tick cfg v i i' hw).stallCnt = (mc.measure cfg v i i' hw).stallCnt := by
  obtain ⟨t, _, _, e⟩ | ⟨m', _, f, _, e⟩ := tick_cases cfg v i i' hw mc h
  · rw [e]; simp
  · rw [e, f]

theorem tick_openCnt (h : mc.mstate ≠ .init) :
    (mc.tick cfg v i i' hw).openCnt = (mc.measure cfg v i i' hw).openCnt := by
  obtain ⟨t, _, _, e⟩ | ⟨m', _, f, _, e⟩ := tick_cases cfg v i i' hw mc h
  · rw [e]; simp
  · rw [e, f]

theorem tick_shortCnt (h : mc.mstate ≠ .init) :
    (mc.tick cfg v i i' hw).shortCnt = (mc.measure cfg v i i' hw).shortCnt := by
  obtain ⟨t, _, _, e⟩ | ⟨m', _, f, _, e⟩ := tick_cases cfg v i i' hw mc h
  · rw [e]; simp
  · rw [e, f]

theorem tick_ocCnt (h : mc.mstate ≠ .init) :
    (mc.tick cfg v i i' hw).ocCnt = (mc.measure cfg v i i' hw).ocCnt := by
  obtain ⟨t, _, _, e⟩ | ⟨m', _, f, _, e⟩ := tick_cases cfg v i i' hw mc h
  · rw [e]; simp
  · rw [e, f]

theorem tick_stallFlags (h : mc.mstate ≠ .init) :
    (mc.tick cfg v i i' hw).stallFlags = (mc.measure cfg v i i' hw).stallFlags := by
  obtain ⟨t, _, _, e⟩ | ⟨m', _, f, _, e⟩ := tick_cases cfg v i i' hw mc h
  · rw [e]; simp
  · rw [e, f]

theorem tick_faultFlags (h : mc.mstate ≠ .init) :
    (mc.tick cfg v i i' hw).faultFlags = (mc.measure cfg v i i' hw).faultFlags := by
  obtain ⟨t, _, _, e⟩ | ⟨m', _, f, _, e⟩ := tick_cases cfg v i i' hw mc h
  · rw [e]; simp
  · rw [e, f]

/-! ### The registers that no tick writes -/

theorem tick_keeps_targetAngle : (mc.tick cfg v i i' hw).targetAngle = mc.targetAngle := by
  by_cases h : mc.mstate = .init
  · rw [tick_init _ _ _ _ _ _ h]; simp
  · rw [tick_targetAngle _ _ _ _ _ _ h]; simp

theorem tick_keeps_haveTarget : (mc.tick cfg v i i' hw).haveTarget = mc.haveTarget := by
  by_cases h : mc.mstate = .init
  · rw [tick_init _ _ _ _ _ _ h]; simp
  · rw [tick_haveTarget _ _ _ _ _ _ h]; simp

theorem tick_keeps_currentAngle : (mc.tick cfg v i i' hw).currentAngle = mc.currentAngle := by
  by_cases h : mc.mstate = .init
  · rw [tick_init _ _ _ _ _ _ h]; simp
  · rw [tick_currentAngle _ _ _ _ _ _ h]; simp

theorem tick_keeps_hardStop : (mc.tick cfg v i i' hw).hardStop = mc.hardStop := by
  by_cases h : mc.mstate = .init
  · rw [tick_init _ _ _ _ _ _ h]; simp
  · rw [tick_hardStop _ _ _ _ _ _ h]; simp

end Tick

end Sys2Proof.Machine
end

