-- ==== Sys2Proof/Laws/PerInstr.lean ====
section
/-! SUPPORT. Laws made per instruction: one lemma per constructor of `Instr` and family. -/

namespace Sys2Proof.Laws.EncodeSingle

open Sys2Proof

/-- The encoding of an instruction presents one strobe and no other: with it taken the ports are quiet, so an encoded
instruction is one step (R11, R91). -/
def Statement (i : Instr) : Prop :=
  ∃ e, firstStrobe (encode i) = some e ∧ firstStrobe (takeStrobe (encode i) e) = none

/-- A command is presented alone, whatever its word. -/
theorem command_alone (w : BitVec 24) :
    ∃ e, firstStrobe (commandInputs w) = some e ∧ firstStrobe (takeStrobe (commandInputs w) e) = none :=
  ⟨.cmd, firstStrobe_commandInputs w, by
    simp [firstStrobe_eq_none, isAsserted, takeStrobe, commandInputs]; intro e; cases e <;> rfl⟩

theorem reqHstop : Statement .reqHstop := command_alone _
theorem clrHstop : Statement .clrHstop := command_alone _
theorem setTarget (angle : Word) : Statement (.setTarget angle) := command_alone _
theorem setCurpos (angle : Word) : Statement (.setCurpos angle) := command_alone _
theorem getState : Statement .getState := command_alone _
theorem getStall : Statement .getStall := command_alone _
theorem getFault : Statement .getFault := command_alone _
theorem clrStall (scope : Word) : Statement (.clrStall scope) := command_alone _
theorem clrFault (scope : Word) : Statement (.clrFault scope) := command_alone _
theorem getTarget : Statement .getTarget := command_alone _
theorem getCurpos : Statement .getCurpos := command_alone _
theorem setSofs (angle : Word) : Statement (.setSofs angle) := command_alone _
theorem getSofs : Statement .getSofs := command_alone _
theorem getAngle : Statement .getAngle := command_alone _
theorem getVsCond : Statement .getVsCond := command_alone _
theorem getIgnCond : Statement .getIgnCond := command_alone _
theorem getTempCond : Statement .getTempCond := command_alone _
theorem getMcuCond : Statement .getMcuCond := command_alone _
theorem getHwCond : Statement .getHwCond := command_alone _
theorem getVs : Statement .getVs := command_alone _
theorem getIgn : Statement .getIgn := command_alone _
theorem getTemp : Statement .getTemp := command_alone _
theorem getImot : Statement .getImot := command_alone _
theorem evHwprot (m : Latch) : Statement (.evHwprot m) :=
  ⟨.hwprot, by simp [firstStrobe_eq, isAsserted, strobeBit, encode],
    by simp [firstStrobe_eq_none, isAsserted, takeStrobe, strobeBit, encode]; intro e; cases e <;> rfl⟩
theorem evAdc (raw : Samples) : Statement (.evAdc raw) :=
  ⟨.adc, by simp [firstStrobe_eq, isAsserted, strobeBit, encode],
    by simp [firstStrobe_eq_none, isAsserted, takeStrobe, strobeBit, encode]; intro e; cases e <;> rfl⟩
theorem evMtick : Statement .evMtick :=
  ⟨.mtick, by simp [firstStrobe_eq, isAsserted, strobeBit, encode],
    by simp [firstStrobe_eq_none, isAsserted, takeStrobe, strobeBit, encode]; intro e; cases e <;> rfl⟩
theorem evAtick : Statement .evAtick :=
  ⟨.atick, by simp [firstStrobe_eq, isAsserted, strobeBit, encode],
    by simp [firstStrobe_eq_none, isAsserted, takeStrobe, strobeBit, encode]; intro e; cases e <;> rfl⟩
theorem evRst : Statement .evRst :=
  ⟨.rst, by simp [firstStrobe_eq, isAsserted, strobeBit, encode],
    by simp [firstStrobe_eq_none, isAsserted, takeStrobe, strobeBit, encode]; intro e; cases e <;> rfl⟩

end Sys2Proof.Laws.EncodeSingle
end

