-- ==== Sys2Proof/Tests/Slice0.lean ====
section
/-! SUPPORT. The model's own tests. Expected values are the spec's (95_test_vectors.md, section named in each docstring) or
are worked by hand from the rule named. `test_` theorems check the model, `witness_` theorems show states and operands that
meet the hypotheses of a statement, each clause at a boundary. -/

namespace Sys2Proof.Tests

open Sys2Proof Sys2Proof.Machine

set_option Elab.async false

/-! ### States and ways to look at one step -/

/-- A window of eight equal words, as cells. -/
def flat (c : Channel) (v : Nat) : Memory :=
  ((List.range 8).flatMap fun i =>
    [(16 * (chanNum c).val + 2 * i, BitVec.ofNat 8 (v / 256)), (16 * (chanNum c).val + 2 * i + 1, BitVec.ofNat 8 v)]).filter
    fun p => p.2 != 0

/-- `BASE` of 95_test_vectors.md with the first motor current given. -/
def baseWith (cur1 : Nat) : State :=
  { State.reset with
    mem := flat .vs 1200 ++ flat .temp 75 ++ flat .cur1 cur1 ++ flat .vdda 330 ++ flat .ign 1200
    mc := { mstate := .stopped, initStatus := true } }

/-- `BASE` of 95_test_vectors.md. -/
def base : State := baseWith 300

/-- A change of Motor Controller registers. -/
def withMC (s : State) (f : MC → MC) : State := { s with mc := f s.mc }

/-- A change of Protection Monitor registers. -/
def withPM (s : State) (f : PM → PM) : State := { s with pm := f s.pm }

/-- Program P1 after tick 1: Accelerating from 0 to 1800. -/
def accelerating : State :=
  withMC base fun mc =>
    { mc with mstate := .accelerating, targetAngle := 1800, haveTarget := true, moveReq := true, duty := 200, outEn := true,
              winCnt := 1, thrHalf := 500, thrFull := 1000, minDuty := 200 }

/-- A state of program P1 on the way, with the motion delta of a moving shaft. -/
def moving (m : MotorState) (angle : Angle) (duty : Word) : State :=
  withMC accelerating fun mc => { mc with mstate := m, currentAngle := angle, duty := duty, motionDelta := 48 }

/-- A condition on the next state that an instruction gives. -/
def after (i : Instr) (s : State) (p : State → Bool) : Bool :=
  match exec i s with
  | .next t => p t
  | .fault _ => false
  | .refused _ => false

/-- A condition on the next state that a step gives. -/
def afterStep (s : State) (p : State → Bool) : Bool :=
  match step s with
  | .next t => p t
  | .fault _ => false
  | .refused _ => false

/-- What `after` says. -/
theorem after_true {i : Instr} {s : State} {p : State → Bool} (h : after i s p = true) :
    ∃ t, exec i s = .next t ∧ p t = true := by
  unfold after at h
  split at h
  · exact ⟨_, ‹_›, h⟩
  · cases h
  · cases h

/-- An instruction answers a response. -/
def answers (i : Instr) (s : State) (st : Status) (d : Nat) : Bool :=
  after i s fun t => t.out == .response st (BitVec.ofNat 16 d)

/-- The motor state after a motor tick. -/
def ticksTo (s : State) (m : MotorState) : Bool := after .evMtick s fun t => decide (t.mc.mstate = m)

/-! ### WellFormed refuses ill-formed terms -/

theorem test_wf_setTarget : (Instr.setTarget 3599).wf = true ∧ (Instr.setTarget 3600).wf = false := by decide
theorem test_wf_setCurpos : (Instr.setCurpos 3599).wf = true ∧ (Instr.setCurpos 3600).wf = false := by decide
theorem test_wf_setSofs : (Instr.setSofs 3599).wf = true ∧ (Instr.setSofs 3600).wf = false := by decide
theorem test_wf_clrStall : (Instr.clrStall 3).wf = true ∧ (Instr.clrStall 4).wf = false := by decide
theorem test_wf_clrFault : (Instr.clrFault 7).wf = true ∧ (Instr.clrFault 8).wf = false := by decide
theorem test_wf_format_n : Format.n.legal 0 = true ∧ Format.n.legal 1 = false := by decide

/-! ### Decoding words written out from R90, R91, R96 -/

/-- Opcodes 0x10 to 0x1A: opcode in bits 23..16, operand in bits 15..0; 1800 = 0x0708, 900 = 0x0384. -/
theorem test_decode_motor_commands :
    decodeCommand 0x100000 = .ok .reqHstop ∧ decodeCommand 0x110000 = .ok .clrHstop ∧
    decodeCommand 0x120708 = .ok (.setTarget 1800) ∧ decodeCommand 0x130384 = .ok (.setCurpos 900) ∧
    decodeCommand 0x140000 = .ok .getState ∧ decodeCommand 0x150000 = .ok .getStall ∧
    decodeCommand 0x160000 = .ok .getFault ∧ decodeCommand 0x170002 = .ok (.clrStall 2) ∧
    decodeCommand 0x180004 = .ok (.clrFault 4) ∧ decodeCommand 0x190000 = .ok .getTarget ∧
    decodeCommand 0x1A0000 = .ok .getCurpos := ⟨rfl, rfl, rfl, rfl, rfl, rfl, rfl, rfl, rfl, rfl, rfl⟩

/-- Opcodes 0x20 to 0x22; 3000 = 0x0BB8. -/
theorem test_decode_sensor_commands :
    decodeCommand 0x200BB8 = .ok (.setSofs 3000) ∧ decodeCommand 0x210000 = .ok .getSofs ∧
    decodeCommand 0x220000 = .ok .getAngle := ⟨rfl, rfl, rfl⟩

/-- Opcodes 0x30 to 0x34 and 0x38 to 0x3B. -/
theorem test_decode_monitor_commands :
    decodeCommand 0x300000 = .ok .getVsCond ∧ decodeCommand 0x310000 = .ok .getIgnCond ∧
    decodeCommand 0x320000 = .ok .getTempCond ∧ decodeCommand 0x330000 = .ok .getMcuCond ∧
    decodeCommand 0x340000 = .ok .getHwCond ∧ decodeCommand 0x380000 = .ok .getVs ∧
    decodeCommand 0x390000 = .ok .getIgn ∧ decodeCommand 0x3A0000 = .ok .getTemp ∧
    decodeCommand 0x3B0000 = .ok .getImot := ⟨rfl, rfl, rfl, rfl, rfl, rfl, rfl, rfl, rfl⟩

/-- The five strobes of `ev` (R91). -/
theorem test_decode_events :
    decode { ev := 0b00001, hwSet := 0b00010 } = some (.ok (.evHwprot 0b00010)) ∧
    decode { ev := 0b00010, adcRaw := { vs := 800 } } = some (.ok (.evAdc { vs := 800 })) ∧
    decode { ev := 0b00100 } = some (.ok .evMtick) ∧ decode { ev := 0b01000 } = some (.ok .evAtick) ∧
    decode { ev := 0b10000 } = some (.ok .evRst) := ⟨rfl, rfl, rfl, rfl, rfl⟩

/-- Section 2.1: unassigned opcodes. -/
theorem test_decode_badop :
    decodeCommand 0x000000 = .error .badOp ∧ decodeCommand 0xFF0000 = .error .badOp ∧
    decodeCommand 0x1B0000 = .error .badOp ∧ decodeCommand 0x230000 = .error .badOp ∧
    decodeCommand 0x350000 = .error .badOp ∧ decodeCommand 0x3C0000 = .error .badOp ∧
    decodeCommand 0x0F1234 = .error .badOp := ⟨rfl, rfl, rfl, rfl, rfl, rfl, rfl⟩

/-- Section 2.1: illegal operands. -/
theorem test_decode_badarg :
    decodeCommand 0x140001 = .error .badArg ∧ decodeCommand 0x120E10 = .error .badArg ∧
    decodeCommand 0x12FFFF = .error .badArg ∧ decodeCommand 0x130E10 = .error .badArg ∧
    decodeCommand 0x200E10 = .error .badArg ∧ decodeCommand 0x170004 = .error .badArg ∧
    decodeCommand 0x180008 = .error .badArg ∧ decodeCommand 0x210001 = .error .badArg ∧
    decodeCommand 0x220100 = .error .badArg ∧ decodeCommand 0x3B8000 = .error .badArg :=
  ⟨rfl, rfl, rfl, rfl, rfl, rfl, rfl, rfl, rfl, rfl⟩

/-- The host's rows: 24 bits a command word, 8 bits the vector `ev`. -/
theorem test_decodeTableWord :
    decodeTableWord 24 0x120708 = some (.setTarget 1800) ∧ decodeTableWord 24 0x120E10 = none ∧
    decodeTableWord 8 0b00100 = some .evMtick ∧ decodeTableWord 8 0b10000 = some .evRst := ⟨rfl, rfl, rfl, rfl⟩

/-! ### One step from the ports -/

/-- MT-1: `GET_STATE` as the first step after reset answers `OK 0`. -/
theorem test_step_first_command :
    afterStep (State.reset.withFetchWord 24 0x140000) (fun t => t.out == .response .ok 0 && t.inq == []) = true := by
  decide +kernel

/-- Section 2.1: `0x120E10` in `BASE` answers `BADARG 0` and changes no register. -/
theorem test_step_refused :
    afterStep (base.withFetchWord 24 0x120E10) (fun t => t == { base with out := .response .badArg 0 }) = true := by
  decide +kernel

/-- MT-1: the first `EV_MTICK` after reset. -/
theorem test_step_first_tick :
    afterStep (State.reset.withFetchWord 8 0b00100)
      (fun t => t == { State.reset with mc := { mstate := .stopped, initStatus := true } }) = true := by decide +kernel

/-- EV-1: of the motor tick, the application tick and the command presented together the motor tick is taken first, and the
other two stay asserted. -/
theorem test_step_order :
    afterStep { (withMC accelerating fun mc => { mc with duty := 990 }) with
        inq := [{ ev := 0b01100, cmdValid := true, cmdWord := 0x140000 }] }
      (fun t => t.mc.mstate == .accelerating && t.mc.duty == 990 &&
        t.inq == [{ ev := 0b01000, cmdValid := true, cmdWord := 0x140000 }]) = true := by decide +kernel

/-! ### Sensor Fusion -/

/-- SF-1, row 9: the ninth conversion overwrites the first sample; sum 6624 (here 856 and 5768), average 828. -/
theorem test_evAdc_wraps_window :
    after (.evAdc { vs := 856 })
      { State.reset with mem := (Memory.writeSamples [] 0 { vs := 800 }).writeSamples 1 { vs := 5768 } }
      (fun t => t.sf.widx == 1 && avg t.mem .vs == 828 && last t.mem t.sf.widx .vs == 856) = true := by decide +kernel

/-- SF-1 and `BASE`: eight equal conversions fill the windows and bring `SF.widx` back. -/
theorem test_evAdc_fills :
    (match Claims.execAll (fill { vs := 1200, ign := 1200, temp := 75, vdda := 330, cur1 := 300 }) State.reset with
      | .next t => t.mem == base.mem && t.sf.widx == 0
      | .fault _ => false
      | .refused _ => false) = true := by decide +kernel

/-- SF-5: 3599 is taken, 3600 is refused. -/
theorem test_setSofs :
    after (.setSofs 3599) State.reset (fun t => t.sf.sensorOffset == 3599 && t.out == .response .ok 0) = true ∧
    after (.setSofs 3600) base (fun t => t == { base with out := .response .badArg 0 }) = true := by decide +kernel

/-- SF-5. -/
theorem test_getSofs :
    answers .getSofs { State.reset with sf := { sensorOffset := 3000 } } .ok 3000 = true ∧
    answers .getSofs State.reset .ok 0 = true := by decide +kernel

/-- SF-2: the remap, row by row. -/
theorem test_remap :
    ([(0x0000, 0), (0x0001, 0), (0x0012, 0), (0x0013, 1), (0x1FFF, 449), (0x2000, 450), (0x2D1C, 634), (0x4000, 900),
      (0x6000, 1350), (0x7FFF, 1799), (0x8000, 1800), (0xA000, 2250), (0xC000, 2700), (0xE000, 3150),
      (0xFFFF, 3599)] : List (BitVec 16 × Nat)).all (fun r => remap refCfg r.1 == r.2) = true := by decide +kernel

/-- SF-3, row (1000, 2000): with an arctangent that gives 11548 there, the angle is 634, and 34 with offset 3000. -/
theorem test_angle :
    let f := fun (y x : BitVec 16) => if y = 2000 ∧ x = 1000 then (11548 : BitVec 16) else 0
    let m := flat .sinp 2000 ++ flat .sinn 1000 ++ flat .cosp 3000 ++ flat .cosn 1000
    angleWith f refCfg m 0 = 634 ∧ angleWith f refCfg m 3000 = 34 := by decide +kernel

/-- SF-4: the clamp is symmetric: −32767 and 32767. -/
theorem test_component_clamps : component 65535 0 0 32767 = 32767 ∧ component 0 65535 0 32767 = -32767 := by decide

/-! ### Protection Monitor -/

/-- PM-4b: bits are added to those pending. -/
theorem test_evHwprot : after (.evHwprot 0b00001) { base with hwpend := 0b00010 }
    (fun t => t == { base with hwpend := 0b00011 }) = true := by decide +kernel

/-- PM-4, tick 1001: Under returns to Normal and the latch is re-armed in this very step. -/
theorem test_evAtick_rearm :
    after .evAtick { (withPM base fun pm => { pm with vsCond := .under, vsCnt := 999 }) with hwpend := 0b00010 }
      (fun t => t == { base with out := .rearm 0b00010 }) = true := by decide +kernel

/-- MT-10: the ramp, 990 to 1000 and no further. -/
theorem test_evAtick_ramp :
    after .evAtick (withMC accelerating fun mc => { mc with duty := 990 }) (fun t => t.mc.duty == 1000) = true ∧
    after .evAtick (withMC accelerating fun mc => { mc with duty := 1000 }) (fun t => t.mc.duty == 1000) = true := by
  decide +kernel

/-- PM-1, PM-6, PM-5, PM-7, PM-8: the condition getters. -/
theorem test_condition_getters :
    let s := withPM base fun pm =>
      { pm with vsCond := .over, ignCond := .off, tCond := .low, mcuCond := .fault, ocCond := .over, vdsCond := .short }
    answers .getVsCond s .ok 2 = true ∧ answers .getIgnCond s .ok 1 = true ∧ answers .getTempCond s .ok 1 = true ∧
    answers .getMcuCond s .ok 1 = true ∧ answers .getHwCond s .ok 3 = true := by decide +kernel

/-- PM-9: the readings in `BASE`. -/
theorem test_reading_getters :
    answers .getVs base .ok 1200 = true ∧ answers .getIgn base .ok 1200 = true ∧ answers .getTemp base .ok 75 = true ∧
    answers .getImot base .ok 300 = true := by decide +kernel

/-- SF-1b: the filtered and the instantaneous current come from different channels. -/
theorem test_currents :
    let s := { base with mem := flat .cur1 100 ++ flat .cur2 450 }
    after (.evAdc { cur1 := 1500, cur2 := 0 }) s
      (fun t => iavg t.mem == 393 && iinst t.mem t.sf.widx == 1500) = true := by decide +kernel

/-! ### Motor Controller: commands -/

/-- MC-3. -/
theorem test_hard_stop :
    after .reqHstop base (fun t => t.mc.hardStop && t.out == .response .ok 0) = true ∧
    after .clrHstop (withMC base fun mc => { mc with hardStop := true })
      (fun t => t == { base with out := .response .ok 0 }) = true := by decide +kernel

/-- MC-2: from a committed target 51, 101 and 1 are no-ops. -/
theorem test_setTarget_holds :
    let s := withMC base fun mc => { mc with haveTarget := true, targetAngle := 51, moveReq := true }
    after (.setTarget 101) s (fun t => t == { s with out := .response .ok 0 }) = true ∧
    after (.setTarget 1) s (fun t => t == { s with out := .response .ok 0 }) = true := by decide +kernel

/-- End of P1: after 1800 is reached, 1851 commits. -/
theorem test_setTarget_commits :
    after (.setTarget 1851) (withMC base fun mc => { mc with haveTarget := true, targetAngle := 1800, posReached := true })
      (fun t => t.mc.targetAngle == 1851 && t.mc.moveReq && !t.mc.posReached && t.out == .response .ok 1) = true := by
  decide +kernel

/-- MC-1. -/
theorem test_setCurpos : after (.setCurpos 1234) base
    (fun t => t == { (withMC base fun mc => { mc with currentAngle := 1234 }) with out := .response .ok 0 }) = true := by
  decide +kernel

/-- MC-1, P1, P2, P3: the getters. -/
theorem test_motor_getters :
    let s := withMC base fun mc =>
      { mc with mstate := .fault, stallFlags := 0b10, faultFlags := 0b100, targetAngle := 1800, currentAngle := 1770 }
    answers .getState s .ok 7 = true ∧ answers .getStall s .ok 2 = true ∧ answers .getFault s .ok 4 = true ∧
    answers .getTarget s .ok 1800 = true ∧ answers .getCurpos s .ok 1770 = true := by decide +kernel

/-- MC-4. -/
theorem test_clrStall :
    let s := withMC base fun mc => { mc with stallFlags := 0b11 }
    answers (.clrStall 0) s .ok 3 = true ∧ answers (.clrStall 1) s .ok 2 = true ∧ answers (.clrStall 3) s .ok 0 = true := by
  decide +kernel

/-- MC-4; each clear is of `0b111`, so scope 5 leaves `0b010`. -/
theorem test_clrFault :
    let s := withMC base fun mc => { mc with faultFlags := 0b111 }
    answers (.clrFault 0) s .ok 7 = true ∧ answers (.clrFault 2) s .ok 5 = true ∧ answers (.clrFault 5) s .ok 2 = true := by
  decide +kernel

/-! ### Motor Controller: the tick -/

/-- P1, tick 1. -/
theorem test_evMtick_starts :
    after .evMtick (withMC base fun mc => { mc with targetAngle := 1800, haveTarget := true, moveReq := true })
      (fun t => t == accelerating) = true := by decide +kernel

/-- MT-9: the soft-stop duty at `dist` 265 and 59. -/
theorem test_evMtick_soft_stop :
    after .evMtick (moving .decelerating 1535 1000) (fun t => t.mc.duty == 883) = true ∧
    after .evMtick (moving .decelerating 1741 323) (fun t => t.mc.duty == 200) = true := by decide +kernel

/-- EV-3: reset from a busy state. -/
theorem test_evRst : after .evRst { accelerating with sf := { sensorOffset := 3000 }, hwpend := 0b11111 }
    (fun t => t == State.reset) = true := by decide +kernel

/-- MT-8: with `MC.dir` Rev the port `out_dir` shows 1, and 0 with `POLE_POL` 1. -/
theorem test_out_dir :
    (withMC base fun mc => { mc with dir := .rev }).outDir = true ∧
    { (withMC base fun mc => { mc with dir := .rev }) with cfg := { refCfg with POLE_POL := true } }.outDir = false := by
  decide

/-- R73 on the word of `SET_TARGET 1800`; the status byte with the padding of entry 20. -/
theorem test_serial : commandBytes 0x120708 = [0x12, 0x07, 0x08] ∧ responseBytes .ok 1800 = [0x00, 0x07, 0x08] := by
  decide

/-! ### Witnesses: decoding and the step -/

theorem witness_EncodeInvertsDecodeCommand :
    decodeCommand 0x120E0F = .ok (.setTarget 3599) ∧ decodeCommand 0x3B0000 = .ok .getImot := ⟨rfl, rfl⟩

/-- The ports of EV-1. -/
def evOne : Inputs := { ev := 0b01100, cmdValid := true, cmdWord := 0x140000 }

/-- Another strobe left, and the last strobe taken. -/
theorem witness_StepRunsDecodedInstruction :
    base.cfg.wf = true ∧ { base with inq := [evOne] }.inq = evOne :: [] ∧ firstStrobe evOne = some .mtick ∧
    decodeStrobe evOne .mtick = .ok .evMtick ∧ (firstStrobe (takeStrobe evOne .mtick)).isSome = true ∧
    firstStrobe { ev := 0b01000 } = some .atick ∧ decodeStrobe { ev := 0b01000 } .atick = .ok .evAtick ∧
    (firstStrobe (takeStrobe { ev := 0b01000 } .atick)).isSome = false :=
  ⟨by decide +kernel, rfl, rfl, rfl, rfl, rfl, rfl, rfl⟩

theorem witness_RefusedCommandChangesNothing :
    base.cfg.wf = true ∧
    firstStrobe { cmdValid := true, cmdWord := 0x0F1234 } = some .cmd ∧ decodeCommand 0x0F1234 = .error .badOp ∧
    firstStrobe { cmdValid := true, cmdWord := 0x120E10 } = some .cmd ∧ decodeCommand 0x120E10 = .error .badArg :=
  ⟨by decide +kernel, rfl, rfl, rfl, rfl⟩

theorem witness_StepAnswers_wellFormed : Claims.WellFormedConfig State.reset.cfg := by
  unfold Claims.WellFormedConfig Claims.U16 Claims.Count
  refine ⟨?_, ?_, ?_, ?_, ?_, ?_, ?_, ?_, ?_, ?_, ?_, ?_, ?_, ?_, ?_⟩ <;> decide +kernel

/-- Not well formed: an octant span past its bound by one. -/
theorem witness_StepAnswers_illFormed : ¬ Claims.WellFormedConfig { refCfg with OCT_SPAN := 451 } :=
  fun h => absurd h.2.1.2.2 (by decide)

theorem witness_NoStrobeIsNoEvent :
    State.reset.cfg.wf = true ∧ State.reset.inq = [] ∧
    ({ State.reset with inq := [{ hwSet := 1, cmdWord := 0x140000 }] } : State).inq =
      ({ hwSet := 1, cmdWord := 0x140000 } : Inputs) :: [] ∧
    ({ hwSet := 1, cmdWord := 0x140000 } : Inputs).ev = 0 ∧
    ({ hwSet := 1, cmdWord := 0x140000 } : Inputs).cmdValid = false := ⟨by decide +kernel, rfl, rfl, rfl, rfl⟩

theorem witness_MotorGettersAnswer : State.reset.mc.mstate = .init := rfl

/-- Both clauses of each clear, at the boundary of its mask. -/
theorem witness_ClearsSelectedFlags :
    3 < (4 : BitVec 16).toNat ∧ (3 : BitVec 16).toNat ≤ 3 ∧ 7 < (8 : BitVec 16).toNat ∧ (7 : BitVec 16).toNat ≤ 7 := by
  decide

/-! ### Witnesses: Sensor Fusion -/

/-- The largest pattern lands on 3599. -/
theorem witness_RemapBelow3600 : refCfg.wf = true ∧ remap refCfg 0xFFFF = 3599 := by decide +kernel

/-- An arctangent that is exact on the axes and diagonals and 0 elsewhere. -/
def octantOnly (y x : BitVec 16) : BitVec 16 :=
  if y = 0 then (if x.toInt < 0 then BitVec.ofInt 16 (-32768) else 0)
  else if 0 < y.toInt then
    if x = 0 then BitVec.ofInt 16 16384 else if 0 < x.toInt then BitVec.ofInt 16 8192 else BitVec.ofInt 16 24576
  else if x = 0 then BitVec.ofInt 16 (-16384)
  else if 0 < x.toInt then BitVec.ofInt 16 (-8192) else BitVec.ofInt 16 (-24576)

theorem witness_EightDirections_function : Claims.Atan2Oct octantOnly := by
  intro a h1 h2
  have hp : (BitVec.ofInt 16 (a : Int)).toInt = (a : Int) := by
    rw [BitVec.toInt_ofInt]; exact Int.bmod_eq_of_le (by omega) (by omega)
  have hn : (BitVec.ofInt 16 (-(a : Int))).toInt = -(a : Int) := by
    rw [BitVec.toInt_ofInt]; exact Int.bmod_eq_of_le (by omega) (by omega)
  have hp0 : BitVec.ofInt 16 (a : Int) ≠ 0 := fun h => by rw [h] at hp; simp at hp; omega
  have hn0 : BitVec.ofInt 16 (-(a : Int)) ≠ 0 := fun h => by rw [h] at hn; simp at hn; omega
  have ha : (0 : Int) < a := by omega
  have ha' : ¬ (a : Int) < 0 := by omega
  have ha'' : ¬ (0 : Int) < -a := by omega
  have ha3 : -(a : Int) < 0 := by omega
  simp only [octantOnly]
  refine ⟨?_, ?_, ?_, ?_, ?_, ?_, ?_, ?_⟩ <;> simp only [hp, hn, hp0, hn0, ha, ha', ha'', ha3, if_true, if_false]

/-- A memory with a sine of `s` and a cosine of `c` thousand, as SF-3 lays it out. -/
def gmr (s c : Int) : Memory :=
  flat .sinp (1000 * s).toNat ++ flat .sinn (-(1000 * s)).toNat ++ flat .cosp (1000 * c).toNat ++
    flat .cosn (-(1000 * c)).toNat

/-- A memory for each of the eight directions, with `a` = 1000. -/
theorem witness_EightDirections_memory : ∀ dir ∈ Claims.directions,
    (Claims.average (gmr dir.1 dir.2.1) .sinp : Int) - (Claims.average (gmr dir.1 dir.2.1) .sinn : Int) = 1000 * dir.1 ∧
    (Claims.average (gmr dir.1 dir.2.1) .cosp : Int) - (Claims.average (gmr dir.1 dir.2.1) .cosn : Int) = 1000 * dir.2.1 := by
  decide +kernel

/-- Two different memories: the same two samples of one channel in slots 0 and 1, exchanged. -/
theorem witness_AngleIgnoresSampleOrder :
    let m := (Memory.writeSamples [] 0 { sinp := 1000 }).writeSamples 1 { sinp := 2000 }
    let m' := (Memory.writeSamples [] 0 { sinp := 2000 }).writeSamples 1 { sinp := 1000 }
    m ≠ m' ∧ ∀ c ∈ ([.sinp, .sinn, .cosp, .cosn] : List Channel), (m.window c).Perm (m'.window c) := by decide +kernel

/-- A sample memory in canonical form that is not empty; `SF.widx` is 7 as it wraps. -/
theorem witness_AdcWrites_and_Fill : base.mem.wf = true ∧ base.mem ≠ [] ∧
    after (.evAdc {}) { base with sf := { widx := 7 } } (fun t => t.sf.widx == 0 && t.mem.wf) = true := by decide +kernel

/-! ### Witnesses: Protection Monitor -/

/-- PM-1 at `VS_DEB` = 1000: 999 readings of 700 and a last one. -/
theorem witness_DebounceTripsExactlyAtCount :
    (1 : Nat) ≤ 1000 ∧ (1000 : Nat) ≤ 65535 ∧ (List.replicate 999 700).length + 1 = 1000 ∧
    ∀ v ∈ 700 :: List.replicate 999 700, v < 800 ∨ 1800 < v := by
  refine ⟨by decide, by decide, by rw [List.length_replicate], ?_⟩
  intro v hv
  have : v = 700 := by
    rcases List.mem_cons.1 hv with h | h
    · exact h
    · exact List.eq_of_mem_replicate h
  omega

/-- PM-2: count 999 of 1000, a miss on the edge of the band, one reading past each edge. -/
theorem witness_DebounceMissStepsBack :
    (2 : Nat) ≤ 1000 ∧ (1000 : Nat) ≤ 65535 ∧ (999 : BitVec 16).toNat + 1 = 1000 ∧ (800 : Nat) ≤ 800 ∧ (800 : Nat) ≤ 1800 ∧
    ((799 : Nat) < 800 ∨ (1800 : Nat) < 799) ∧ ((1801 : Nat) < 800 ∨ (1800 : Nat) < 1801) := by decide

/-- PM-1b: the edges of the band of the supply monitor in each condition. -/
theorem witness_HysteresisBandHolds :
    (∀ v ∈ [800, 1800], 800 ≤ v ∧ v ≤ 1800) ∧ (∀ v ∈ [900, 850], v ≤ 900) ∧ (∀ v ∈ [1700, 1800], 1700 ≤ v) := by decide

/-- MT-2 at the edge of the first row, of the second, and below them all. -/
theorem witness_LookupPicksTheRow :
    refCfg.VTAB.Pairwise (fun a b => a.vmin < b.vmin) ∧ 800 ≤ 800 ∧ vlookup refCfg.VTAB 799 = ⟨800, 300, 600, 300⟩ ∧
    vlookup refCfg.VTAB 999 = ⟨800, 300, 600, 300⟩ ∧ vlookup refCfg.VTAB 1000 = ⟨1000, 400, 800, 250⟩ := by decide +kernel

/-- The clauses of R143: `OV` with `UV`, `UV` alone, neither (one reading past the edge), and a side with `OV` still set. -/
theorem witness_SupplyMonitor :
    after .evAtick { base with hwpend := 0b00011 } (fun t => t.pm.vsCond == .over && t.pm.vsCnt == 0) = true ∧
    after .evAtick { base with hwpend := 0b00010 } (fun t => t.pm.vsCond == .under && t.pm.vsCnt == 0) = true ∧
    after .evAtick { base with mem := flat .vs 799 } (fun t => t.pm.vsCond == .normal && t.pm.vsCnt == 1) = true ∧
    after .evAtick { base with mem := flat .vs 800 } (fun t => t.pm.vsCond == .normal && t.pm.vsCnt == 0) = true ∧
    after .evAtick { (withPM base fun pm => { pm with vsCond := .over, vsCnt := 999 }) with hwpend := 0b00011 }
      (fun t => t.pm.vsCond == .normal && t.rearmPort == 0b00001) = true := by decide +kernel

/-- The clauses of R145. -/
theorem witness_TemperatureMonitor :
    after .evAtick { base with hwpend := 0b00100 } (fun t => t.pm.tCond == .high && t.pm.tCnt == 0) = true ∧
    after .evAtick { base with mem := flat .temp 201 } (fun t => t.pm.tCond == .normal && t.pm.tCnt == 1) = true ∧
    after .evAtick { (withPM base fun pm => { pm with tCond := .high, tCnt := 99 }) with hwpend := 0b00100 }
      (fun t => t.pm.tCond == .normal && t.rearmPort == 0b00100) = true := by decide +kernel

/-- The clauses of R146, one reading before the trip and at it, on the edges 299 and 321 (PM-7). -/
theorem witness_McuHealthMonitor :
    after .evAtick { (withPM base fun pm => { pm with mcuCnt := 498 }) with mem := flat .vdda 299 }
      (fun t => t.pm.mcuCond == .ok && t.pm.mcuCnt == 499) = true ∧
    after .evAtick { (withPM base fun pm => { pm with mcuCnt := 499 }) with mem := flat .vdda 299 }
      (fun t => t.pm.mcuCond == .fault && t.pm.mcuCnt == 0) = true ∧
    after .evAtick { (withPM base fun pm => { pm with mcuCond := .fault, mcuCnt := 499 }) with mem := flat .vdda 321 }
      (fun t => t.pm.mcuCond == .ok && t.pm.mcuCnt == 0) = true := by decide +kernel

/-- The clauses of R147 and R148 (PM-8). -/
theorem witness_HardwareMonitors :
    after .evAtick { base with hwpend := 0b11000 }
      (fun t => t.pm.ocCond == .over && t.pm.vdsCond == .short && t.rearmPort == 0) = true ∧
    after .evAtick { (withPM base fun pm => { pm with ocCond := .over, ocCnt := 99, vdsCond := .short, vdsCnt := 99 }) with
        mem := flat .cur1 999, hwpend := 0b11000 }
      (fun t => t.pm.ocCond == .normal && t.pm.vdsCond == .normal && t.rearmPort == 0b11000) = true ∧
    after .evAtick { (withPM accelerating fun pm => { pm with ocCond := .over, vdsCond := .short, vdsCnt := 99 }) with
        mem := flat .cur1 1000, hwpend := 0b11000 }
      (fun t => t.pm.ocCond == .over && t.pm.vdsCond == .short && t.pm.vdsCnt == 98 && t.rearmPort == 0) = true := by
  decide +kernel

/-- PM-4, tick 1001: a tick that re-arms. -/
theorem witness_RearmOnlyOnReturn :
    ∃ t, exec .evAtick { (withPM base fun pm => { pm with vsCond := .under, vsCnt := 999 }) with hwpend := 0b00010 } = .next t ∧
      (t.rearmPort.getLsbD 1 && t.hwpend == 0) = true := after_true (by decide +kernel)

/-! ### Witnesses: the motor tick -/

theorem witness_FirstTickLeavesInit :
    State.reset.mc.mstate = .init ∧ Instr.evMtick ≠ .evRst ∧ base.mc.mstate ≠ .init ∧
    ∃ t, exec .evMtick base = .next t ∧ decide (t.mc.mstate ≠ .init) = true :=
  ⟨rfl, by decide, by decide, after_true (by decide +kernel)⟩

/-- The last tick of a window and the last but one (`MOTION_WIN` = 100; P1, tick 100). -/
theorem witness_MotionObserver :
    base.mc.mstate ≠ .init ∧
    after .evMtick (withMC accelerating fun mc => { mc with winCnt := 99, currentAngle := 12 })
      (fun t => t.mc.winCnt == 0 && t.mc.refAngle == 12 && t.mc.motionDelta == 12) = true ∧
    after .evMtick (withMC accelerating fun mc => { mc with winCnt := 98, currentAngle := 12 })
      (fun t => t.mc.winCnt == 99 && t.mc.refAngle == 0 && t.mc.motionDelta == 0) = true := by decide +kernel

/-- MT-1: the lookup from `BASE`; and R312, the thresholds frozen while the output is on, at another supply. -/
theorem witness_ThresholdsLatchedWhileEnabled :
    base.mc.mstate ≠ .init ∧ base.mc.outEn = false ∧ accelerating.mc.outEn = true ∧
    after .evMtick base (fun t => t.mc.thrHalf == 500 && t.mc.thrFull == 1000 && t.mc.minDuty == 200) = true ∧
    after .evMtick { accelerating with mem := flat .vs 1400 }
      (fun t => t.mc.thrHalf == 500 && t.mc.thrFull == 1000 && t.mc.minDuty == 200) = true := by decide +kernel

/-- `dist` 30 and 31 at `OFF_HYST` = 30 (P1, tick 4587). -/
theorem witness_PositionReachedTest :
    Claims.distance (moving .decelerating 1770 200) = 30 ∧ Claims.distance (moving .decelerating 1769 200) = 31 ∧
    after .evMtick (moving .decelerating 1770 200)
      (fun t => !t.mc.outEn && t.mc.posReached && !t.mc.moveReq) = true ∧
    after .evMtick (moving .decelerating 1769 200)
      (fun t => t.mc.outEn && !t.mc.posReached && t.mc.moveReq) = true := by decide +kernel

/-- Running under load: both currents at `c`, the observer at `delta`, enabled for `timer` ticks. -/
def loaded (c : Nat) (delta : Angle) (timer obstr stall : Word) : State :=
  { moving .running 900 1000 with
    mem := flat .vs 1200 ++ flat .cur1 c
    mc := { (moving .running 900 1000).mc with motionDelta := delta, enTimer := timer, obstrCnt := obstr, stallCnt := stall } }

/-- `STALL_MASK_TICKS` = 1000: masked at 999; active at 1000; and the last counts of P3 and MT-3b. -/
theorem witness_StallDetectors :
    after .evMtick (loaded 1000 0 999 7 7) (fun t => t.mc.obstrCnt == 0 && t.mc.stallCnt == 0 && t.mc.stallFlags == 0) = true ∧
    after .evMtick (loaded 1000 0 1000 0 0) (fun t => t.mc.obstrCnt == 0 && t.mc.stallCnt == 1 && t.mc.stallFlags == 0) = true ∧
    after .evMtick (loaded 1000 0 10999 0 9999)
      (fun t => t.mc.stallCnt == 10000 && t.mc.stallFlags == 0b10 && t.mc.mstate == .stalled) = true ∧
    after .evMtick (loaded 600 1 20999 19999 0)
      (fun t => t.mc.obstrCnt == 20000 && t.mc.stallFlags == 0b01 && t.mc.mstate == .stalled) = true := by decide +kernel

theorem witness_StallDetectors_active :
    Claims.drivenAfterTest (loaded 1000 0 1000 0 0) ∧
    (loaded 1000 0 1000 0 0).cfg.STALL_MASK_TICKS ≤ (loaded 1000 0 1000 0 0).mc.enTimer.toNat := by
  unfold Claims.drivenAfterTest; decide +kernel

/-- All classes enabled and at their last counts; all disabled. -/
theorem witness_FaultDetectors :
    after .evMtick { withMC (loaded 10 48 5 0 0) (fun mc => { mc with openCnt := 4999, shortCnt := 0, ocCnt := 4999 }) with
        hwpend := 0b10000 }
      (fun t => t.mc.openCnt == 5000 && t.mc.shortCnt == 1 && t.mc.ocCnt == 4998 && t.mc.faultFlags == 0b011) = true ∧
    after .evMtick (withMC (loaded 1500 48 5 0 0) fun mc => { mc with openCnt := 4999, ocCnt := 4999 })
      (fun t => t.mc.openCnt == 4998 && t.mc.ocCnt == 5000 && t.mc.faultFlags == 0b100) = true ∧
    after .evMtick { withMC (loaded 1500 48 5 0 0) (fun mc => { mc with openCnt := 7, shortCnt := 7, ocCnt := 4999 }) with
        cfg := { refCfg with FAULT_EN := 0 }, hwpend := 0b10000 }
      (fun t => t.mc.openCnt == 0 && t.mc.shortCnt == 0 && t.mc.ocCnt == 0 && t.mc.faultFlags == 0) = true := by
  decide +kernel

/-- R200 to R209, an exit of each state: the arms of `NextMotorState` that are premises. -/
theorem witness_TransitionRelation :
    ticksTo (moving .running 1500 1000) .decelerating = true ∧ ticksTo (moving .running 1499 1000) .running = true ∧
    ticksTo (withMC (moving .running 587 1000) fun mc => { mc with targetAngle := 100 }) .paused = true ∧
    ticksTo (withMC (moving .running 337 1000) fun mc => { mc with hardStop := true }) .stopped = true ∧
    ticksTo (withMC (moving .running 337 1000) fun mc => { mc with faultFlags := 1, stallFlags := 1 }) .fault = true ∧
    ticksTo (withMC (moving .running 337 1000) fun mc => { mc with stallFlags := 1 }) .stalled = true ∧
    ticksTo (withMC (moving .decelerating 1600 500) fun mc => { mc with restore := true, restoreCnt := 9 }) .stopped = true ∧
    ticksTo (withMC (moving .decelerating 1600 500) fun mc => { mc with restore := true, restoreCnt := 8 }) .decelerating = true ∧
    ticksTo (withMC (moving .decelerating 1600 500) fun mc => { mc with motionDelta := 0 }) .decelerating = true ∧
    ticksTo (withMC (moving .decelerating 1600 500) fun mc => { mc with targetAngle := 100 }) .paused = true ∧
    ticksTo (withMC (moving .paused 587 1000) fun mc => { mc with elapsed := 99 }) .stopped = true ∧
    ticksTo (withMC (moving .paused 587 1000) fun mc => { mc with elapsed := 98 }) .paused = true := by decide +kernel

/-- An entry to each of the six states that have one of their own. -/
theorem witness_EntryActions :
    ticksTo State.reset .stopped = true ∧ ticksTo (withMC (moving .running 587 1000) fun mc => { mc with targetAngle := 100 }) .paused = true ∧
    ticksTo (withMC base fun mc => { mc with stallFlags := 1 }) .stalled = true ∧
    ticksTo (withMC base fun mc => { mc with faultFlags := 1 }) .fault = true ∧
    ticksTo (withMC base fun mc => { mc with targetAngle := 31, moveReq := true }) .accelerating = true ∧
    ticksTo (moving .accelerating 238 1000) .running = true ∧ ticksTo (moving .accelerating 1500 400) .decelerating = true := by
  decide +kernel

/-- The output enable on entry to Running and to Decelerating: on with `dist` 31 or more, lowered with `dist` 30. -/
theorem witness_EntryActions_output :
    after .evMtick (moving .accelerating 238 1000) (fun t => t.mc.mstate == .running && t.mc.outEn) = true ∧
    after .evMtick (moving .accelerating 1769 400) (fun t => t.mc.mstate == .decelerating && t.mc.outEn) = true ∧
    after .evMtick (moving .accelerating 1770 400) (fun t => t.mc.mstate == .decelerating && !t.mc.outEn) = true := by
  decide +kernel

/-- Both directions of the port `out_dir` (R31, R211). -/
theorem witness_ResetClearsEverything_ports :
    base.mc.dir = .fwd ∧ (withMC base fun mc => { mc with dir := .rev }).mc.dir = .rev := ⟨rfl, rfl⟩

/-- The three clauses of the soft stop: P1, ticks 4700 and after, and MT-9. -/
theorem witness_SoftStopDuty :
    after .evMtick (withMC (moving .decelerating 1770 1000) fun mc => { mc with restore := true, restoreCnt := 8 })
      (fun t => t.mc.mstate == .decelerating && t.mc.restore && t.mc.restoreCnt == 9 && t.mc.duty == 1000) = true ∧
    after .evMtick (withMC (moving .decelerating 1770 200) fun mc => { mc with motionDelta := 0, dutySaved := 1000 })
      (fun t => t.mc.mstate == .decelerating && t.mc.restore && t.mc.restoreCnt == 0 && t.mc.duty == 1000) = true ∧
    after .evMtick (withMC (moving .decelerating 1703 1000) fun mc => { mc with motionDelta := 1 })
      (fun t => t.mc.mstate == .decelerating && !t.mc.restore && t.mc.duty == 323) = true := by decide +kernel

/-- Held in Running with the output on, and in Decelerating with the output lowered. -/
theorem witness_DriveHeldOutsideRamps :
    after .evMtick (moving .running 587 1000)
      (fun t => t.mc.mstate == .running && t.mc.outEn && t.mc.duty == 1000) = true ∧
    after .evMtick (moving .decelerating 1770 200)
      (fun t => t.mc.mstate == .decelerating && !t.mc.outEn) = true := by decide +kernel

/-- The clauses of R187 and R188: a transition, no transition at saturation, the enabling tick, any other tick. -/
theorem witness_TickTimers :
    after .evMtick (withMC (moving .accelerating 238 1000) fun mc => { mc with elapsed := 799, enTimer := 799 })
      (fun t => t.mc.mstate == .running && t.mc.elapsed == 0 && t.mc.enTimer == 800) = true ∧
    after .evMtick (withMC (moving .running 587 1000) fun mc => { mc with elapsed := 65535, enTimer := 65535 })
      (fun t => t.mc.mstate == .running && t.mc.elapsed == 65535 && t.mc.enTimer == 65535) = true ∧
    after .evMtick (withMC base fun mc => { mc with targetAngle := 1800, moveReq := true })
      (fun t => t.mc.mstate == .accelerating && t.mc.elapsed == 0 && t.mc.enTimer == 0) = true ∧
    after .evMtick (withMC (moving .decelerating 1770 200) fun mc => { mc with enTimer := 5 })
      (fun t => !t.mc.outEn && t.mc.enTimer == 0) = true := by decide +kernel

/-- A stall under a fault. -/
def stallUnderFault : State := withMC base fun mc => { mc with mstate := .fault, stallFlags := 0b10 }

/-- A short cleared early: MT-5 after its second tick. -/
def shortPending : State :=
  { (withMC base fun mc => { mc with mstate := .fault, faultFlags := 0b010, shortCnt := 2 }) with hwpend := 0b10000 }

/-- A stall about to be cleared, one tenth outside `OFF_HYST`. -/
def stalledOnTheWay : State :=
  withMC base fun mc => { mc with mstate := .stalled, stallFlags := 0b10, targetAngle := 31, moveReq := true }

theorem witness_StallSurvivesFault :
    stallUnderFault.mc.mstate = .fault ∧ stallUnderFault.mc.faultFlags = 0 ∧ stallUnderFault.mc.stallFlags ≠ 0 ∧
    stallUnderFault.mc.outEn = false ∧ stallUnderFault.hwpend.getLsbD 4 = false := by decide +kernel

theorem witness_EarlyShortClearUndone :
    shortPending.mc.mstate = .fault ∧ shortPending.cfg.FAULT_EN.getLsbD 1 = true ∧
    shortPending.hwpend.getLsbD 4 = true ∧
    shortPending.cfg.SHORT_TRIP ≤ min (shortPending.mc.shortCnt.toNat + 1) 65535 := by decide +kernel

theorem witness_MoveRestartsAfterClear :
    stalledOnTheWay.mc.mstate = .stalled ∧ stalledOnTheWay.mc.faultFlags = 0 ∧ stalledOnTheWay.mc.outEn = false ∧
    stalledOnTheWay.hwpend.getLsbD 4 = false ∧ stalledOnTheWay.mc.moveReq = true ∧
    stalledOnTheWay.mc.hardStop = false ∧ stalledOnTheWay.cfg.OFF_HYST < Claims.distance stalledOnTheWay := by
  decide +kernel

/-! ### Witnesses: the whole machine -/

theorem witness_CommandsIdempotent : Claims.isCommand (.setTarget 1800) = true ∧ Claims.isCommand .getImot = true :=
  ⟨rfl, rfl⟩

/-- One instruction of each kind of context gives a next state. -/
theorem witness_ContextsWriteOnlyTheirOwn :
    ([.evRst, .evAdc { vs := 1 }, .evHwprot 0b11111, .evMtick, .evAtick, .setTarget 1800, .getAngle] : List Instr).all
      (fun i => after i base fun t => t.inq == []) = true := by decide +kernel

theorem witness_RequestClearedOnlyByReaching :
    (moving .decelerating 1770 200).mc.moveReq = true ∧
    ∃ t, exec .evMtick (moving .decelerating 1770 200) = .next t ∧ decide (t.mc.moveReq = false) = true :=
  ⟨rfl, after_true (by decide +kernel)⟩

/-- A sound state on the move, with a command on the ports, and a step of it. -/
theorem witness_StepKeepsSound :
    (accelerating.present (encode (.setCurpos 3599))).sound = true ∧
    afterStep (accelerating.present (encode (.setCurpos 3599))) (fun t => t.sound && t.mc.currentAngle == 3599) = true := by
  decide +kernel

end Sys2Proof.Tests
end

section
/-! Strobes on the input ports (R11, R12, R91), R9 in numbers, and what one step answers (R5, R10, R258). -/

namespace Sys2Proof

/-! ### Taking a strobe (R11) -/

/-- The `strobeBit` of a command is 0, so the equation covers it with the events. -/
@[simp] theorem takeStrobe_ev (p : Inputs) (e : Strobe) : (takeStrobe p e).ev = p.ev &&& ~~~strobeBit e := by
  cases e with
  | cmd => exact (BitVec.and_allOnes (x := p.ev)).symm
  | rst | hwprot | adc | mtick | atick => rfl

@[simp] theorem takeStrobe_hwSet (p : Inputs) (e : Strobe) : (takeStrobe p e).hwSet = p.hwSet := by cases e <;> rfl
@[simp] theorem takeStrobe_adcRaw (p : Inputs) (e : Strobe) : (takeStrobe p e).adcRaw = p.adcRaw := by cases e <;> rfl
@[simp] theorem takeStrobe_cmdWord (p : Inputs) (e : Strobe) : (takeStrobe p e).cmdWord = p.cmdWord := by cases e <;> rfl

theorem takeStrobe_cmdValid_of_ne (p : Inputs) {e : Strobe} (h : e ≠ .cmd) :
    (takeStrobe p e).cmdValid = p.cmdValid := by
  cases e with
  | cmd => exact absurd rfl h
  | rst | hwprot | adc | mtick | atick => rfl

theorem isAsserted_event (p : Inputs) {e : Strobe} (h : e ≠ .cmd) :
    isAsserted p e = ((p.ev &&& strobeBit e) != 0) := by
  cases e with
  | cmd => exact absurd rfl h
  | rst | hwprot | adc | mtick | atick => rfl

/-- Different strobes have different bits of `ev` (R91). -/
theorem not_strobeBit_and_of_ne {e e' : Strobe} (h : e' ≠ e) : ~~~strobeBit e &&& strobeBit e' = strobeBit e' := by
  revert h; cases e <;> cases e' <;> decide

theorem isAsserted_takeStrobe_self (p : Inputs) (e : Strobe) : isAsserted (takeStrobe p e) e = false := by
  by_cases he : e = .cmd
  · subst he; rfl
  · simp [isAsserted_event _ he, BitVec.and_assoc]

theorem isAsserted_takeStrobe_of_ne (p : Inputs) {e e' : Strobe} (h : e' ≠ e) :
    isAsserted (takeStrobe p e) e' = isAsserted p e' := by
  by_cases he' : e' = .cmd
  · subst he'; exact takeStrobe_cmdValid_of_ne p h.symm
  · rw [isAsserted_event _ he', isAsserted_event _ he', takeStrobe_ev, BitVec.and_assoc, not_strobeBit_and_of_ne h]

/-- Taking a strobe clears that strobe alone (R11). -/
theorem isAsserted_takeStrobe (p : Inputs) (e e' : Strobe) :
    isAsserted (takeStrobe p e) e' = (isAsserted p e' && decide (e' ≠ e)) := by
  by_cases h : e' = e
  · subst h; simp [isAsserted_takeStrobe_self]
  · simp [isAsserted_takeStrobe_of_ne p h, h]

/-- The order of R11 on the bits of R91. -/
theorem firstStrobe_eq_bits (p : Inputs) :
    firstStrobe p =
      if p.ev.getLsbD 4 = true then some .rst else if p.ev.getLsbD 0 = true then some .hwprot
      else if p.ev.getLsbD 1 = true then some .adc else if p.ev.getLsbD 2 = true then some .mtick
      else if p.ev.getLsbD 3 = true then some .atick else if p.cmdValid = true then some .cmd else none := by
  obtain ⟨hrst, hhwprot, hadc, hmtick, hatick, hcmd⟩ := isAsserted_bit p
  rw [firstStrobe_eq, hrst, hhwprot, hadc, hmtick, hatick, hcmd]

/-! ### The check of a configuration is R9 in numbers -/

theorem isU16_iff (n : Nat) : isU16 n = true ↔ Claims.U16 n := by
  simp only [isU16, Claims.U16, decide_eq_true_eq]; omega

theorem isCount_iff (n : Nat) : isCount n = true ↔ Claims.Count n := by
  simp only [isCount, Claims.Count, Bool.and_eq_true, decide_eq_true_eq]; omega

theorem isTenths_iff (n : Nat) : isTenths n = true ↔ n ≤ 3599 := by
  simp only [isTenths, decide_eq_true_eq]; omega

theorem isI16_iff (n : Int) : isI16 n = true ↔ -32768 ≤ n ∧ n ≤ 32767 := by
  simp only [isI16, Bool.and_eq_true, decide_eq_true_eq]; omega

theorem inRange_iff (r : VRow) :
    r.inRange = true ↔ Claims.U16 r.vmin ∧ Claims.U16 r.half ∧ Claims.U16 r.full ∧ Claims.U16 r.minDuty := by
  simp only [VRow.inRange, Bool.and_eq_true, isU16_iff, and_assoc]

theorem wfSF_iff (c : Cfg) :
    c.wfSF = true ↔
      (-32768 ≤ c.SIN_OFS ∧ c.SIN_OFS ≤ 32767 ∧ -32768 ≤ c.COS_OFS ∧ c.COS_OFS ≤ 32767) ∧
      (1 ≤ c.SINCOS_MAX ∧ c.SINCOS_MAX ≤ 32767 ∧ c.OCT_SPAN ≤ 450) ∧
      (∀ b ∈ c.OCT_BASE.toList, b ≤ 3599 ∧ b + c.OCT_SPAN ≤ 3600) := by
  simp only [Cfg.wfSF, Bool.and_eq_true, decide_eq_true_eq, List.all_eq_true, isI16_iff, isTenths_iff, and_assoc]

/-- The ranges that only the check states follow along each ordering from its upper end. -/
theorem wfPM_iff (c : Cfg) :
    c.wfPM = true ↔
      (c.VS_UNDER_STOP ≤ c.VS_UNDER_RETURN ∧ c.VS_UNDER_RETURN ≤ c.VS_OVER_RETURN ∧
        c.VS_OVER_RETURN ≤ c.VS_OVER_STOP ∧ Claims.U16 c.VS_OVER_STOP ∧ Claims.Count c.VS_DEB) ∧
      (c.IGN_OFF_STOP ≤ c.IGN_OFF_RETURN ∧ Claims.U16 c.IGN_OFF_RETURN ∧ Claims.Count c.IGN_DEB) ∧
      (c.TEMP_LOW_STOP ≤ c.TEMP_LOW_RETURN ∧ c.TEMP_LOW_RETURN ≤ c.TEMP_HIGH_RETURN ∧
        c.TEMP_HIGH_RETURN ≤ c.TEMP_HIGH_STOP ∧ Claims.U16 c.TEMP_HIGH_STOP ∧ Claims.Count c.TEMP_DEB) ∧
      (c.VDDA_FAULT ≤ c.VDDA_OK ∧ Claims.U16 c.VDDA_OK ∧ Claims.Count c.VDDA_DEB) ∧
      (Claims.U16 c.HWOC_RETURN ∧ Claims.Count c.HW_DEB) := by
  simp only [Cfg.wfPM, Bool.and_eq_true, decide_eq_true_eq, isU16_iff, isCount_iff, Claims.U16, Claims.Count]
  omega

theorem wfMC_iff (c : Cfg) :
    c.wfMC = true ↔
      (c.OFF_HYST ≤ 3599 ∧ c.ON_HYST ≤ 3599) ∧
      (c.START_DUTY ≤ c.DUTY_FULL ∧ c.SOFTSTOP_ENTRY ≤ c.DUTY_FULL ∧ Claims.Count c.DUTY_FULL ∧
        Claims.Count c.RAMP_STEP) ∧
      (1 ≤ c.DECEL_WINDOW ∧ c.DECEL_WINDOW ≤ 3599 ∧ Claims.Count c.PAUSE_TICKS ∧ Claims.Count c.RESTORE_TICKS) ∧
      (Claims.U16 c.STALL_MASK_TICKS ∧ Claims.Count c.MOTION_WIN ∧ c.MOTION_STOP_MAX ≤ c.MOTION_LOW_MAX ∧
        c.MOTION_LOW_MAX ≤ 3599) ∧
      (Claims.Count c.OBSTR_TRIP ∧ Claims.Count c.STALL_TRIP ∧ Claims.U16 c.OPEN_I_MAX ∧ Claims.Count c.OPEN_TRIP) ∧
      (Claims.U16 c.OC_CEILING ∧ Claims.Count c.OC_TRIP ∧ Claims.Count c.SHORT_TRIP) ∧
      (c.VTAB ≠ [] ∧
        (∀ r ∈ c.VTAB, Claims.U16 r.vmin ∧ Claims.U16 r.half ∧ Claims.U16 r.full ∧ Claims.U16 r.minDuty) ∧
        c.VTAB.Pairwise (fun r r' => r.vmin < r'.vmin)) := by
  simp only [Cfg.wfMC, Bool.and_eq_true, decide_eq_true_eq, isU16_iff, isCount_iff, isTenths_iff, List.all_eq_true,
    inRange_iff, Bool.not_eq_true', List.isEmpty_eq_false_iff, vminRising_iff_pairwise, Claims.U16, Claims.Count]
  constructor
  · rintro ⟨⟨⟨hnum, hrows⟩, hne⟩, hrising⟩
    refine ⟨?_, ?_, ?_, ?_, ?_, ?_, hne, hrows, hrising⟩ <;> omega
  · rintro ⟨hhyst, hduty, hramp, hmotion, hstall, hfault, hne, hrows, hrising⟩
    exact ⟨⟨⟨by omega, hrows⟩, hne⟩, hrising⟩

/-- The model's check of a configuration is R9 spelled out. -/
theorem wf_iff_wellFormedConfig (c : Cfg) : c.wf = true ↔ Claims.WellFormedConfig c := by
  simp only [Cfg.wf, Bool.and_eq_true, wfSF_iff, wfPM_iff, wfMC_iff, Claims.WellFormedConfig, and_assoc]

namespace Machine

/-! ### One step -/

theorem fetch_run {s : State} {p : Inputs} {rest : List Inputs} {e : Strobe} {i : Instr} (hq : s.inq = p :: rest)
    (he : firstStrobe p = some e) (hi : decodeStrobe p e = .ok i) :
    fetch s = .run i { s with inq := restInputs p e rest } := by
  simp only [fetch, hq, he, hi]

theorem step_of_fetch_run {s s' : State} {i : Instr} (hwf : s.cfg.wf = true) (h : fetch s = .run i s') :
    step s = exec i s' := by
  simp only [step, hwf, h, if_true]

/-- Nothing in the block halts or traps (R258): an event that is run, one that is refused, and no event all answer a next
state. -/
theorem step_next (s : State) (hwf : s.cfg.wf = true) : ∃ t, step s = .next t ∧ t.cfg = s.cfg := by
  obtain ⟨_, h⟩ | ⟨q, h⟩ | ⟨i, q, h⟩ | ⟨err, q, h⟩ := step_cases s hwf
  · exact ⟨_, h, rfl⟩
  · exact ⟨_, h, rfl⟩
  · obtain ⟨t, ht, hcfg, _⟩ := exec_next i { s with inq := q }
    exact ⟨t, h.trans ht, hcfg⟩
  · exact ⟨_, h, raise_cfg err _⟩

/-! ### The obligations -/

/-- Settles O8: the order from the bits of R91, and the frame of taking one strobe. -/
theorem strobesTakenInOrder : Obligations.StrobesTakenInOrder := fun p =>
  ⟨firstStrobe_eq_bits p, fun e =>
    ⟨isAsserted_takeStrobe p e, takeStrobe_hwSet p e, takeStrobe_adcRaw p e, takeStrobe_cmdWord p e⟩⟩

/-- Settles O9: the check in `step` is R9, and every case of a step that passes it answers. -/
theorem stepAnswersExactlyOnWellFormedConfigs : Obligations.StepAnswersExactlyOnWellFormedConfigs := fun s =>
  ⟨fun h => step_next s ((wf_iff_wellFormedConfig s.cfg).2 h),
    fun h => step_refused s (Bool.eq_false_iff.2 (mt (wf_iff_wellFormedConfig s.cfg).1 h))⟩

/-- Settles O6: the fetch of an instruction, and the step that runs it. -/
theorem stepRunsDecodedInstruction : Obligations.StepRunsDecodedInstruction :=
  fun _ _ _ _ _ hwf hq he hi => step_of_fetch_run hwf (fetch_run hq he hi)

end Machine

end Sys2Proof
end

section
/-! What a sound state is, in numbers, and that every instruction keeps it (R45, R20, R9); what each context writes
(R44, R280). -/

namespace Sys2Proof.Machine

/-! ### Masks: a bit set in the one is set in the other -/

theorem and_not_eq_zero {w : Nat} {m m' : BitVec w} (h : ∀ b, m.getLsbD b = true → m'.getLsbD b = true) :
    m &&& ~~~m' = 0 := by
  apply BitVec.eq_of_getLsbD_eq
  intro b hb
  cases hm : m.getLsbD b with
  | false => simp [hm]
  | true => simp [h b hm]

theorem and_not_self_or {w : Nat} (m x : BitVec w) : m &&& ~~~(m ||| x) = 0 :=
  and_not_eq_zero fun b h => by simp [h]

theorem and_and_not_self {w : Nat} (m x : BitVec w) : (m &&& x) &&& ~~~m = 0 :=
  and_not_eq_zero fun b h => by
    rw [BitVec.getLsbD_and, Bool.and_eq_true] at h
    exact h.1

/-! ### Everything a command can do (R130 to R132, R160 to R168, R240 to R250) -/

/-- The next states of a command: an answer alone (a getter, a refusal, a target that is held), or one write with its
answer. An angle that is written is a legal one (R90); a flag register is only masked (R247, R248). -/
inductive CommandStep (s : State) : State → Prop
  | answer (o : Output) : CommandStep s { s with out := o }
  | hardStop (b : Bool) (o : Output) : CommandStep s { s with mc := { s.mc with hardStop := b }, out := o }
  | target {angle : Word} (legal : angle.toNat < 3600) (o : Output) :
      CommandStep s { s with mc := s.mc.commitTarget angle, out := o }
  | position {angle : Word} (legal : angle.toNat < 3600) (o : Output) :
      CommandStep s { s with mc := { s.mc with currentAngle := toAngle angle.toNat }, out := o }
  | offset {angle : Word} (legal : angle.toNat < 3600) (o : Output) :
      CommandStep s { s with sf := { s.sf with sensorOffset := toAngle angle.toNat }, out := o }
  | stallFlags (kept : BitVec 2) (o : Output) :
      CommandStep s { s with mc := { s.mc with stallFlags := s.mc.stallFlags &&& kept }, out := o }
  | faultFlags (kept : BitVec 3) (o : Output) :
      CommandStep s { s with mc := { s.mc with faultFlags := s.mc.faultFlags &&& kept }, out := o }

theorem commandStep_of_next {s t t' : State} (hs : CommandStep s t')
    (h : (.next t' : Host.Outcome State Fault Refusal) = .next t) : CommandStep s t := by
  cases h; exact hs

theorem commandStep_of_respond {s t : State} {data : Word}
    (h : (.next (s.respond data) : Host.Outcome State Fault Refusal) = .next t) : CommandStep s t :=
  commandStep_of_next (.answer _) h

/-- A command with an operand: its write needs a legal one, and any other is refused. -/
theorem commandStep_of_withOperand {f : Format} {x : Word} {s run t : State}
    (hrun : f.legal x = true → CommandStep s run) (h : withOperand f x s run = .next t) : CommandStep s t := by
  obtain ⟨hlegal, e⟩ | ⟨_, e⟩ := withOperand_cases f x s run
  · exact commandStep_of_next (hrun hlegal) (e.symm.trans h)
  · exact commandStep_of_next (.answer _) (e.symm.trans h)

theorem exec_command {i : Instr} {s t : State} (hi : Claims.isCommand i = true) (h : exec i s = .next t) :
    CommandStep s t := by
  cases i with
  | evHwprot | evAdc | evMtick | evAtick | evRst => exact absurd hi Bool.false_ne_true
  | reqHstop => exact commandStep_of_next (.hardStop true _) h
  | clrHstop => exact commandStep_of_next (.hardStop false _) h
  | setTarget angle =>
    refine commandStep_of_withOperand (fun hlegal => ?_) h
    split
    · exact .answer _
    · exact .target (by simpa using hlegal) _
  | setCurpos angle => exact commandStep_of_withOperand (fun hlegal => .position (by simpa using hlegal) _) h
  | setSofs angle => exact commandStep_of_withOperand (fun hlegal => .offset (by simpa using hlegal) _) h
  | clrStall scope => exact commandStep_of_withOperand (fun _ => .stallFlags _ _) h
  | clrFault scope => exact commandStep_of_withOperand (fun _ => .faultFlags _ _) h
  | getState | getStall | getFault | getTarget | getCurpos | getSofs | getAngle | getVsCond | getIgnCond | getTempCond
  | getMcuCond | getHwCond | getVs | getIgn | getTemp | getImot => exact commandStep_of_respond h

/-- No command drops a request (R30): only the commit of a target writes the bit, to 1. -/
theorem commandStep_moveReq {s t : State} (h : CommandStep s t) (hreq : s.mc.moveReq = true) : t.mc.moveReq = true := by
  cases h with
  | target => rfl
  | _ => exact hreq

/-! ### A sound state in numbers -/

/-- "Every `PM` counter is below its trip count" (R45, R40). -/
structure PM.Legal (cfg : Cfg) (pm : PM) : Prop where
  vs : pm.vsCnt.toNat < cfg.VS_DEB
  ign : pm.ignCnt.toNat < cfg.IGN_DEB
  temp : pm.tCnt.toNat < cfg.TEMP_DEB
  mcu : pm.mcuCnt.toNat < cfg.VDDA_DEB
  oc : pm.ocCnt.toNat < cfg.HW_DEB
  vds : pm.vdsCnt.toNat < cfg.HW_DEB

/-- The four angles of the Motor Controller below 3600 (R45, R29). -/
structure MC.AnglesLegal (mc : MC) : Prop where
  target : mc.targetAngle.toNat < 3600
  current : mc.currentAngle.toNat < 3600
  reference : mc.refAngle.toNat < 3600
  delta : mc.motionDelta.toNat < 3600

/-- The other clauses of R45 on the Motor Controller, with those of R20, R27 and R28 that make them inductive. -/
structure MC.Legal (cfg : Cfg) (mc : MC) : Prop where
  request : mc.moveReq = true → mc.posReached = false
  output : mc.outEn = true → isMoving mc.mstate = true
  restore : mc.restore = true → mc.mstate = .decelerating
  timer : mc.outEn = false → mc.enTimer = 0
  window : mc.winCnt.toNat < cfg.MOTION_WIN
  status : mc.initStatus = false ↔ mc.mstate = .init
  target : mc.moveReq = true → mc.haveTarget = true
  duty : mc.mstate = .init ∨ mc.mstate = .stopped → mc.duty = 0

theorem monitorsLegal_iff (s : State) : s.monitorsLegal = true ↔ s.pm.Legal s.cfg := by
  simp only [State.monitorsLegal, Bool.and_eq_true, decide_eq_true_eq]
  constructor
  · rintro ⟨⟨⟨⟨⟨vs, ign⟩, temp⟩, mcu⟩, oc⟩, vds⟩; exact ⟨vs, ign, temp, mcu, oc, vds⟩
  · rintro ⟨vs, ign, temp, mcu, oc, vds⟩; exact ⟨⟨⟨⟨⟨vs, ign⟩, temp⟩, mcu⟩, oc⟩, vds⟩

theorem anglesLegal_iff (s : State) :
    s.anglesLegal = true ↔ s.sf.sensorOffset.toNat < 3600 ∧ s.mc.AnglesLegal := by
  simp only [State.anglesLegal, Bool.and_eq_true, decide_eq_true_eq]
  constructor
  · rintro ⟨⟨⟨⟨offset, target⟩, current⟩, reference⟩, delta⟩
    exact ⟨offset, target, current, reference, delta⟩
  · rintro ⟨offset, target, current, reference, delta⟩
    exact ⟨⟨⟨⟨offset, target⟩, current⟩, reference⟩, delta⟩

theorem motorLegal_iff (s : State) : s.motorLegal = true ↔ s.mc.Legal s.cfg := by
  have himp : ∀ a b : Bool, (!a || b) = true ↔ (a = true → b = true) := by decide
  have hoff : (s.mc.outEn || decide (s.mc.enTimer = 0)) = true ↔ (s.mc.outEn = false → s.mc.enTimer = 0) := by
    cases s.mc.outEn <;> simp
  have hand : ∀ a b : Bool, (!(a && b)) = true ↔ (a = true → b = false) := by decide
  have hswap : ∀ a b : Bool, (a || !b) = true ↔ (b = true → a = true) := by decide
  have hne : ∀ a b : Bool, (a != b) = true ↔ (a = false ↔ b = true) := by decide
  simp only [State.motorLegal, Bool.and_eq_true, himp, hswap, hoff, hand, hne, decide_eq_true_eq, Bool.or_eq_true]
  constructor
  · rintro ⟨⟨⟨⟨⟨⟨⟨request, output⟩, restore⟩, timer⟩, window⟩, status⟩, target⟩, duty⟩
    exact ⟨request, output, restore, timer, window, status, target, duty⟩
  · rintro ⟨request, output, restore, timer, window, status, target, duty⟩
    exact ⟨⟨⟨⟨⟨⟨⟨request, output⟩, restore⟩, timer⟩, window⟩, status⟩, target⟩, duty⟩

/-- `State.sound` by the sub-block it speaks of: nothing of it is about the latches, the ports or the output. -/
structure SoundParts (cfg : Cfg) (sf : SF) (pm : PM) (mc : MC) (mem : Memory) : Prop where
  config : cfg.wf = true
  offset : sf.sensorOffset.toNat < 3600
  angles : mc.AnglesLegal
  monitors : pm.Legal cfg
  motor : mc.Legal cfg
  memory : mem.wf = true

theorem sound_iff (s : State) : s.sound = true ↔ SoundParts s.cfg s.sf s.pm s.mc s.mem := by
  simp only [State.sound, Bool.and_eq_true, anglesLegal_iff, monitorsLegal_iff, motorLegal_iff]
  constructor
  · rintro ⟨⟨⟨⟨config, offset, angles⟩, monitors⟩, motor⟩, memory⟩
    exact ⟨config, offset, angles, monitors, motor, memory⟩
  · rintro ⟨config, offset, angles, monitors, motor, memory⟩
    exact ⟨⟨⟨⟨config, offset, angles⟩, monitors⟩, motor⟩, memory⟩

/-- After reset every register is 0 (R43), which is sound under every well-formed configuration. -/
theorem soundParts_reset {cfg : Cfg} (h : cfg.wf = true) : SoundParts cfg ({} : SF) ({} : PM) ({} : MC) [] where
  config := h
  offset := by decide
  angles := ⟨by decide, by decide, by decide, by decide⟩
  monitors := by
    obtain ⟨vs, ign, temp, vdda, hw⟩ := wf_monitor_counts cfg h
    exact ⟨vs, ign, temp, vdda, hw, hw⟩
  motor := by
    obtain ⟨hwin, -⟩ := wf_motor_counts cfg h
    exact ⟨nofun, nofun, nofun, fun _ => rfl, hwin, by decide, nofun, fun _ => rfl⟩
  memory := rfl

/-! ### Angles (R29, R90, R183) -/

theorem toAngle_lt {n : Nat} (h : n < 3600) : (toAngle n).toNat < 3600 := by
  rw [toAngle_toNat n (by omega)]; exact h

theorem observe_anglesLegal {cfg : Cfg} {mc : MC} (h : mc.AnglesLegal) : (mc.observe cfg).AnglesLegal := by
  obtain ⟨target, current, reference, delta⟩ := h
  simp only [MC.observe]
  split
  · exact ⟨target, current, current, toAngle_lt (adiff_lt _ _ current reference)⟩
  · exact ⟨target, current, reference, delta⟩

/-- The state machine writes no angle; the observer writes two. -/
theorem tick_anglesLegal {cfg : Cfg} {v i i' : Nat} {hw : Latch} {mc : MC} (h : mc.AnglesLegal) :
    (mc.tick cfg v i i' hw).AnglesLegal := by
  by_cases hm : mc.mstate = .init
  · obtain ⟨target, current, reference, delta⟩ := h
    rw [tick_init _ _ _ _ _ _ hm]
    constructor <;> simpa
  · obtain ⟨target, current, reference, delta⟩ := observe_anglesLegal (cfg := cfg) h
    constructor
    · rwa [tick_keeps_targetAngle, ← observe_targetAngle cfg mc]
    · rwa [tick_keeps_currentAngle, ← observe_currentAngle cfg mc]
    · rwa [tick_refAngle _ _ _ _ _ _ hm, measure_refAngle]
    · rwa [tick_motionDelta _ _ _ _ _ _ hm, measure_motionDelta]

/-! ### The monitors' counters (R40, R141 to R148) -/

theorem pmSupply_vsCnt_lt {cfg : Cfg} {v : Nat} {hw : Latch} {pm : PM} (h : pm.vsCnt.toNat < cfg.VS_DEB) :
    (pmSupply cfg v hw pm).1.vsCnt.toNat < cfg.VS_DEB := by
  simp only [pmSupply]
  split
  · exact Nat.zero_lt_of_lt h
  · split
    · exact Nat.zero_lt_of_lt h
    · exact mon_counter_lt _ _ _ _ _ _ _ _ h

theorem pmIgnition_ignCnt_lt {cfg : Cfg} {v : Nat} {pm : PM} (h : pm.ignCnt.toNat < cfg.IGN_DEB) :
    (pmIgnition cfg v pm).ignCnt.toNat < cfg.IGN_DEB := mon_counter_lt _ _ _ _ _ _ _ _ h

theorem pmTemperature_tCnt_lt {cfg : Cfg} {v : Nat} {hw : Latch} {pm : PM} (h : pm.tCnt.toNat < cfg.TEMP_DEB) :
    (pmTemperature cfg v hw pm).1.tCnt.toNat < cfg.TEMP_DEB := by
  simp only [pmTemperature]
  split
  · exact Nat.zero_lt_of_lt h
  · exact mon_counter_lt _ _ _ _ _ _ _ _ h

theorem pmMcuHealth_mcuCnt_lt {cfg : Cfg} {v : Nat} {pm : PM} (h : pm.mcuCnt.toNat < cfg.VDDA_DEB) :
    (pmMcuHealth cfg v pm).mcuCnt.toNat < cfg.VDDA_DEB := by
  unfold pmMcuHealth
  extract_lets c cnt
  split
  next => exact Nat.zero_lt_of_lt h
  next hn => exact updown_lt_of_not_trip _ _ _ h hn

theorem pmHwOc_ocCnt_lt {cfg : Cfg} {i : Nat} {hw : Latch} {pm : PM} (h : pm.ocCnt.toNat < cfg.HW_DEB) :
    (pmHwOc cfg i hw pm).1.ocCnt.toNat < cfg.HW_DEB := by
  simp only [pmHwOc]
  split
  · split
    · exact Nat.zero_lt_of_lt h
    · exact h
  · split
    next => exact Nat.zero_lt_of_lt h
    next hn => exact updown_lt_of_not_trip _ _ _ h hn

theorem pmHwVds_vdsCnt_lt {cfg : Cfg} {outEn : Bool} {hw : Latch} {pm : PM} (h : pm.vdsCnt.toNat < cfg.HW_DEB) :
    (pmHwVds cfg outEn hw pm).1.vdsCnt.toNat < cfg.HW_DEB := by
  simp only [pmHwVds]
  split
  · split
    · exact Nat.zero_lt_of_lt h
    · exact h
  · split
    next => exact Nat.zero_lt_of_lt h
    next hn => exact updown_lt_of_not_trip _ _ _ h hn

theorem pmTick_legal {cfg : Cfg} {m : Memory} {hw : Latch} {outEn : Bool} {pm : PM} (h : pm.Legal cfg) :
    (pmTick cfg m hw outEn pm).1.Legal cfg where
  vs := by rw [pmTick_vsCnt]; exact pmSupply_vsCnt_lt h.vs
  ign := by rw [pmTick_ignCnt]; exact pmIgnition_ignCnt_lt h.ign
  temp := by rw [pmTick_tCnt]; exact pmTemperature_tCnt_lt h.temp
  mcu := by rw [pmTick_mcuCnt]; exact pmMcuHealth_mcuCnt_lt h.mcu
  oc := by rw [pmTick_ocCnt]; exact pmHwOc_ocCnt_lt h.oc
  vds := by rw [pmTick_vdsCnt]; exact pmHwVds_vdsCnt_lt h.vds

/-! ### The motor tick (R180 to R188) -/

theorem not_legalMove_self (a : MotorState) : legalMove a a = false := by cases a <;> rfl

section Tick
variable {cfg : Cfg} {v i i' : Nat} {hw : Latch} {mc : MC}

/-- `Init` is left for Stopped, and no transition leads back to it (R181). -/
theorem tick_mstate_ne_init : (mc.tick cfg v i i' hw).mstate ≠ .init := by
  by_cases hm : mc.mstate = .init
  · rw [tick_init _ _ _ _ _ _ hm]; simp
  · obtain ⟨target, hmove, _, e⟩ | ⟨m', _, frame, _, e⟩ := tick_cases cfg v i i' hw mc hm
    · rw [e]
      intro hinit
      obtain rfl : target = .init := by simpa using hinit
      cases mc.mstate <;> simp [legalMove] at hmove
    · rw [e, frame]; simpa using hm

theorem tick_initStatus (hm : mc.mstate ≠ .init) : (mc.tick cfg v i i' hw).initStatus = mc.initStatus := by
  obtain ⟨target, _, _, e⟩ | ⟨m', _, frame, _, e⟩ := tick_cases cfg v i i' hw mc hm
  · rw [e]; simp
  · rw [e, frame]; simp

/-- A tick that keeps its state took no transition; outside Decelerating it then leaves what the sub-steps measured, but
for the two timers. -/
theorem tick_of_mstate_eq (hm : mc.mstate ≠ .init) (hd : mc.mstate ≠ .decelerating)
    (h : (mc.tick cfg v i i' hw).mstate = mc.mstate) :
    ∃ elapsed enTimer, mc.tick cfg v i i' hw =
      { mc.measure cfg v i i' hw with elapsed := elapsed, enTimer := enTimer } := by
  obtain ⟨target, hmove, _, e⟩ | ⟨m', _, _, hsame, e⟩ := tick_cases cfg v i i' hw mc hm
  · rw [e] at h
    have htarget : target = mc.mstate := by simpa using h
    rw [htarget, not_legalMove_self] at hmove
    exact absurd hmove Bool.false_ne_true
  · rw [hsame hd] at e
    exact ⟨_, _, e⟩

/-- The restore phase belongs to Decelerating: every entry ends it, and no other state starts it (R186, R206). -/
theorem tick_restore (hm : mc.mstate ≠ .init) (h : mc.restore = true → mc.mstate = .decelerating)
    (hr : (mc.tick cfg v i i' hw).restore = true) : (mc.tick cfg v i i' hw).mstate = .decelerating := by
  obtain ⟨target, _, _, e⟩ | ⟨m', _, frame, hsame, e⟩ := tick_cases cfg v i i' hw mc hm
  · rw [e] at hr; simp at hr
  · have hstate : (mc.tick cfg v i i' hw).mstate = mc.mstate := by rw [e, frame]; simp
    rw [hstate]
    by_cases hd : mc.mstate = .decelerating
    · exact hd
    · rw [e, hsame hd] at hr
      exact h (by simpa using hr)

/-- A tick that ends with the output off ends with `MC.enTimer` 0 (R187). -/
theorem tick_enTimer (hm : mc.mstate ≠ .init) (h : (mc.tick cfg v i i' hw).outEn = false) :
    (mc.tick cfg v i i' hw).enTimer = 0 := by
  obtain ⟨target, _, _, e⟩ | ⟨m', _, frame, _, e⟩ := tick_cases cfg v i i' hw mc hm
  · have hout : ((mc.measure cfg v i i' hw).enter cfg mc.travel target).outEn = false := by rw [e] at h; exact h
    rw [e]; simp [hout]
  · have hout : (mc.measure cfg v i i' hw).outEn = false := by rw [e, frame] at h; exact h
    rw [e]; simp [hout]

/-- A tick that ends in Stopped has entered it, with duty 0, or stayed in it and left the duty (R186). -/
theorem tick_duty_stopped (hm : mc.mstate ≠ .init) (h : mc.mstate = .stopped → mc.duty = 0)
    (hs : (mc.tick cfg v i i' hw).mstate = .stopped) : (mc.tick cfg v i i' hw).duty = 0 := by
  by_cases hstay : mc.mstate = .stopped
  · obtain ⟨_, _, e⟩ := tick_of_mstate_eq hm (by simp [hstay]) (hs.trans hstay.symm)
    rw [e]; simpa using h hstay
  · obtain ⟨target, _, _, e⟩ | ⟨m', _, frame, _, e⟩ := tick_cases cfg v i i' hw mc hm
    · rw [e] at hs ⊢
      obtain rfl : target = .stopped := by simpa using hs
      rfl
    · rw [e, frame] at hs
      exact absurd (by simpa using hs) hstay

/-- The output is on after a tick only in a moving state (R27, R186). -/
theorem tick_outEn_moving (hm : mc.mstate ≠ .init) (h : mc.outEn = true → isMoving mc.mstate = true)
    (hout : (mc.tick cfg v i i' hw).outEn = true) : isMoving (mc.tick cfg v i i' hw).mstate = true := by
  rw [tick_outEn _ _ _ _ _ _ hm] at hout
  split at hout
  next hstay =>
    rw [hstay]
    exact h (Bool.and_eq_true_iff.1 hout).1
  next =>
    cases hstate : (mc.tick cfg v i i' hw).mstate with
    | init => exact absurd hstate tick_mstate_ne_init
    | accelerating | running | decelerating => rfl
    | stopped | paused | stalled | fault => simp [hstate] at hout

theorem observe_winCnt_lt (hwin : 1 ≤ cfg.MOTION_WIN) : (mc.observe cfg).winCnt.toNat < cfg.MOTION_WIN := by
  by_cases hend : cfg.MOTION_WIN ≤ mc.winCnt.toNat + 1
  · rw [(observe_window_end cfg mc hend).1]; exact hwin
  · rw [(observe_inside_window cfg mc (by omega)).1]
    have hle : (mc.winCnt + 1).toNat ≤ mc.winCnt.toNat + 1 := by rw [BitVec.toNat_add]; exact Nat.mod_le _ _
    omega

/-- The position test drops the request in the tick in which it reports the target reached (R184). -/
theorem tick_request (hm : mc.mstate ≠ .init) (h : mc.moveReq = true → mc.posReached = false)
    (hreq : (mc.tick cfg v i i' hw).moveReq = true) : (mc.tick cfg v i i' hw).posReached = false := by
  rw [tick_moveReq _ _ _ _ _ _ hm, measure_moveReq, Bool.and_eq_true, decide_eq_true_eq] at hreq
  obtain ⟨hbefore, hfar⟩ := hreq
  rw [tick_posReached _ _ _ _ _ _ hm, measure_posReached, h hbefore]
  simpa using hfar

/-- The first motor tick enters Stopped and reports it (R181). -/
theorem tick_init_legal (hm : mc.mstate = .init) (h : mc.Legal cfg) : (mc.tick cfg v i i' hw).Legal cfg := by
  obtain ⟨request, output, restore, timer, window, status, target, duty⟩ := h
  have hoff : mc.outEn = false := Bool.eq_false_iff.2 fun hout => by simpa [hm, isMoving] using output hout
  rw [tick_init _ _ _ _ _ _ hm]
  exact {
    request := request
    output := nofun
    restore := nofun
    timer := fun _ => timer hoff
    window := window
    status := ⟨nofun, nofun⟩
    target := target
    duty := fun _ => rfl }

/-- The motor tick keeps R45. -/
theorem tick_legal (hcfg : cfg.wf = true) (h : mc.Legal cfg) : (mc.tick cfg v i i' hw).Legal cfg := by
  by_cases hm : mc.mstate = .init
  · exact tick_init_legal hm h
  · obtain ⟨hwin, -⟩ := wf_motor_counts cfg hcfg
    exact {
      request := tick_request hm h.request
      output := tick_outEn_moving hm h.output
      restore := tick_restore hm h.restore
      timer := tick_enTimer hm
      window := by rw [tick_winCnt _ _ _ _ _ _ hm, measure_winCnt]; exact observe_winCnt_lt hwin
      status := by
        rw [tick_initStatus hm]
        exact iff_of_false (mt h.status.1 hm) tick_mstate_ne_init
      target := fun hreq => by
        rw [tick_moveReq _ _ _ _ _ _ hm, measure_moveReq, Bool.and_eq_true] at hreq
        rw [tick_keeps_haveTarget]
        exact h.target hreq.1
      duty := fun hs =>
        tick_duty_stopped hm (fun h' => h.duty (.inr h')) (hs.resolve_left tick_mstate_ne_init) }

end Tick

/-! ### The application tick (R210) and the commit of a target (R242) -/

theorem ramp_eq (cfg : Cfg) (mc : MC) : mc.ramp cfg = { mc with duty := (mc.ramp cfg).duty } := by
  simp only [MC.ramp]; split <;> rfl

theorem ramp_duty_of_ne {cfg : Cfg} {mc : MC} (h : mc.mstate ≠ .accelerating) : (mc.ramp cfg).duty = mc.duty := by
  simp only [MC.ramp, h, if_false]

theorem ramp_anglesLegal {cfg : Cfg} {mc : MC} (h : mc.AnglesLegal) : (mc.ramp cfg).AnglesLegal := by
  rw [ramp_eq]; exact { h with }

theorem ramp_legal {cfg : Cfg} {mc : MC} (h : mc.Legal cfg) : (mc.ramp cfg).Legal cfg := by
  obtain ⟨request, output, restore, timer, window, status, target, duty⟩ := h
  rw [ramp_eq]
  refine ⟨request, output, restore, timer, window, status, target, fun hs => ?_⟩
  have hstate : mc.mstate = .init ∨ mc.mstate = .stopped := hs
  have hne : mc.mstate ≠ .accelerating := by rcases hstate with e | e <;> simp [e]
  exact (ramp_duty_of_ne hne).trans (duty hstate)

theorem commitTarget_legal {cfg : Cfg} {mc : MC} (angle : Word) (h : mc.Legal cfg) :
    (mc.commitTarget angle).Legal cfg :=
  { h with request := fun _ => rfl, target := fun _ => rfl }

/-! ### Every instruction and every step -/

/-- The registers a command writes are free in `MC.Legal`, but for those of a committed target. -/
theorem commandStep_sound {s t : State} (hs : s.sound = true) (h : CommandStep s t) : t.sound = true := by
  rw [sound_iff] at hs ⊢
  obtain ⟨config, offset, angles, monitors, motor, memory⟩ := hs
  cases h with
  | answer => exact ⟨config, offset, angles, monitors, motor, memory⟩
  | hardStop => exact ⟨config, offset, { angles with }, monitors, { motor with }, memory⟩
  | target legal =>
    exact ⟨config, offset, { angles with target := toAngle_lt legal }, monitors, commitTarget_legal _ motor, memory⟩
  | position legal =>
    exact ⟨config, offset, { angles with current := toAngle_lt legal }, monitors, { motor with }, memory⟩
  | offset legal => exact ⟨config, toAngle_lt legal, angles, monitors, motor, memory⟩
  | stallFlags => exact ⟨config, offset, { angles with }, monitors, { motor with }, memory⟩
  | faultFlags => exact ⟨config, offset, { angles with }, monitors, { motor with }, memory⟩

theorem exec_sound {i : Instr} {s t : State} (hs : s.sound = true) (h : exec i s = .next t) : t.sound = true := by
  cases i with
  | evHwprot m => cases h; exact hs
  | evAdc raw =>
    rw [sound_iff] at hs
    have hmem := writeSamples_wf s.mem s.sf.widx raw hs.memory
    rw [exec_evAdc] at h
    generalize s.mem.writeSamples s.sf.widx raw = m at h hmem
    cases h
    exact (sound_iff _).2 { hs with memory := hmem }
  | evMtick =>
    cases h
    rw [sound_iff] at hs ⊢
    exact { hs with angles := tick_anglesLegal hs.angles, motor := tick_legal hs.config hs.motor }
  | evAtick =>
    rw [sound_iff] at hs
    have hmonitors := pmTick_legal (m := s.mem) (hw := s.hwpend) (outEn := s.mc.outEn) hs.monitors
    rw [exec_evAtick] at h
    generalize pmTick s.cfg s.mem s.hwpend s.mc.outEn s.pm = r at h hmonitors
    cases h
    exact (sound_iff _).2
      { hs with angles := ramp_anglesLegal hs.angles, monitors := hmonitors, motor := ramp_legal hs.motor }
  | evRst =>
    cases h
    rw [sound_iff] at hs ⊢
    exact soundParts_reset hs.config
  | _ => exact commandStep_sound hs (exec_command rfl h)

/-- Soundness says nothing of the stimulus. -/
theorem sound_with_inq (s : State) (q : List Inputs) : State.sound { s with inq := q } = s.sound := rfl

theorem sound_raise (err : CmdError) (s : State) : (s.raise err).sound = s.sound := by cases err <;> rfl

/-! ### What each context writes (R44, R280) -/

theorem tick_stallFlags_keeps (cfg : Cfg) (v i i' : Nat) (hw : Latch) (mc : MC) :
    mc.stallFlags &&& ~~~(mc.tick cfg v i i' hw).stallFlags = 0 := by
  refine and_not_eq_zero fun b hb => ?_
  by_cases hm : mc.mstate = .init
  · rw [tick_init _ _ _ _ _ _ hm]; simpa using hb
  · rw [tick_stallFlags _ _ _ _ _ _ hm]; exact measure_stallFlags_keeps _ _ _ _ _ _ b hb

theorem tick_faultFlags_keeps (cfg : Cfg) (v i i' : Nat) (hw : Latch) (mc : MC) :
    mc.faultFlags &&& ~~~(mc.tick cfg v i i' hw).faultFlags = 0 := by
  refine and_not_eq_zero fun b hb => ?_
  by_cases hm : mc.mstate = .init
  · rw [tick_init _ _ _ _ _ _ hm]; simpa using hb
  · rw [tick_faultFlags _ _ _ _ _ _ hm]; exact measure_faultFlags_keeps _ _ _ _ _ _ b hb

/-- The registers of the command context that no motor tick writes. -/
theorem tick_frame (cfg : Cfg) (v i i' : Nat) (hw : Latch) (mc : MC) :
    mc.tick cfg v i i' hw =
      { mc.tick cfg v i i' hw with
        targetAngle := mc.targetAngle, currentAngle := mc.currentAngle, haveTarget := mc.haveTarget,
        hardStop := mc.hardStop } := by
  rw [← tick_keeps_targetAngle cfg v i i' hw mc, ← tick_keeps_currentAngle cfg v i i' hw mc,
    ← tick_keeps_haveTarget cfg v i i' hw mc, ← tick_keeps_hardStop cfg v i i' hw mc]

theorem exec_next_keeps {i : Instr} {s t : State} (h : exec i s = .next t) : t.cfg = s.cfg ∧ t.inq = s.inq := by
  obtain ⟨t', e, hcfg, hinq⟩ := exec_next i s
  cases e.symm.trans h
  exact ⟨hcfg, hinq⟩

/-- What the command context may write (R44): the zero-point, the angles, the request bits; flags are only cleared. -/
def CommandFrame (s t : State) : Prop :=
  t = { s with sf := { s.sf with sensorOffset := t.sf.sensorOffset },
               mc := { s.mc with targetAngle := t.mc.targetAngle, haveTarget := t.mc.haveTarget,
                                 currentAngle := t.mc.currentAngle, hardStop := t.mc.hardStop,
                                 moveReq := t.mc.moveReq, posReached := t.mc.posReached,
                                 stallFlags := t.mc.stallFlags, faultFlags := t.mc.faultFlags },
               out := t.out } ∧
  t.mc.stallFlags &&& ~~~s.mc.stallFlags = 0 ∧ t.mc.faultFlags &&& ~~~s.mc.faultFlags = 0

theorem commandStep_frame {s t : State} (h : CommandStep s t) : CommandFrame s t := by
  cases h with
  | stallFlags kept => exact ⟨rfl, and_and_not_self _ _, BitVec.and_not_self _⟩
  | faultFlags kept => exact ⟨rfl, BitVec.and_not_self _, and_and_not_self _ _⟩
  | _ => exact ⟨rfl, BitVec.and_not_self _, BitVec.and_not_self _⟩

/-! ### The obligations -/

/-- Settles O59: of the four things a step can do, one runs an instruction, and no other touches a register. -/
theorem stepKeepsSound : Obligations.StepKeepsSound := by
  intro s t hs h
  obtain ⟨_, e⟩ | ⟨q, e⟩ | ⟨i, q, e⟩ | ⟨err, q, e⟩ := step_cases s ((sound_iff s).1 hs).config
  · cases e.symm.trans h; exact hs
  · cases e.symm.trans h; exact hs
  · exact exec_sound (by rwa [sound_with_inq]) (e.symm.trans h)
  · cases e.symm.trans h; rwa [sound_raise, sound_with_inq]

/-- Settles O60: every register is 0, and REFCFG is well formed. -/
theorem resetIsSound : Obligations.ResetIsSound := (sound_iff _).2 (soundParts_reset (cfg := refCfg) (by decide))

/-- Settles O51: with no transition the position test alone lowers the output, and outside Decelerating the registers
are those the sub-steps measured. -/
theorem driveHeldOutsideRamps : Obligations.DriveHeldOutsideRamps := by
  intro s t h hm hstay
  cases h
  refine ⟨?_, fun hd => ?_⟩
  · rw [tick_outEn _ _ _ _ _ _ hm, if_pos hstay, Bool.and_eq_true, decide_eq_true_eq]
    exact Iff.rfl
  · obtain ⟨_, _, e⟩ := tick_of_mstate_eq hm hd hstay
    simp [e]

/-- Settles O58: no command and no other event writes `MC.moveReq` to 0, and of the sub-steps of the motor tick only the
position test does. -/
theorem requestClearedOnlyByReaching : Obligations.RequestClearedOnlyByReaching := by
  intro i s t hi h hreq hclear
  cases i with
  | evRst => exact absurd rfl hi
  | evHwprot m => cases h; simp [hreq] at hclear
  | evAdc raw => cases h; simp [hreq] at hclear
  | evAtick => cases h; simp [hreq] at hclear
  | evMtick =>
    cases h
    by_cases hm : s.mc.mstate = .init
    · simp [tick_init _ _ _ _ _ _ hm, hreq] at hclear
    · have hnear : s.mc.travel.natAbs ≤ s.cfg.OFF_HYST := by
        simpa [tick_moveReq _ _ _ _ _ _ hm, measure_moveReq, hreq] using hclear
      refine ⟨rfl, hm, hnear, ?_⟩
      simp [tick_posReached _ _ _ _ _ _ hm, measure_posReached, hnear]
  | _ => exact absurd (commandStep_moveReq (exec_command rfl h) hreq) (by simp [hclear])

/-- Settles O57: the frame of each event, and one frame for all commands. -/
theorem contextsWriteOnlyTheirOwn : Obligations.ContextsWriteOnlyTheirOwn := by
  intro i s t h
  obtain ⟨hcfg, hinq⟩ := exec_next_keeps h
  refine ⟨hcfg, hinq, ?_⟩
  cases i with
  | evRst => cases h; exact ⟨rfl, rfl, rfl, rfl, rfl⟩
  | evAdc raw =>
    rw [exec_evAdc] at h
    generalize s.mem.writeSamples s.sf.widx raw = m at h
    cases h; rfl
  | evHwprot m => cases h; exact ⟨rfl, and_not_self_or _ _⟩
  | evMtick =>
    cases h
    exact ⟨congrArg (fun mc => { s with mc := mc, out := .none }) (tick_frame _ _ _ _ _ _),
      tick_stallFlags_keeps _ _ _ _ _ _, tick_faultFlags_keeps _ _ _ _ _ _⟩
  | evAtick =>
    rw [exec_evAtick, ramp_eq] at h
    generalize pmTick s.cfg s.mem s.hwpend s.mc.outEn s.pm = r at h
    cases h
    exact ⟨rfl, and_and_not_self _ _⟩
  | _ => exact commandStep_frame (exec_command rfl h)

end Sys2Proof.Machine
end

section
/-! The byte-serial order of a command word (R73), and the commands issued twice (R75). -/

namespace Sys2Proof

/-! ### The bytes of a command word (R73, R90) -/

/-- Three bytes in a row are an opcode followed by an operand of two bytes (R90). -/
theorem commandOfBytes_eq_append (op hi lo : Byte) :
    commandOfBytes op hi lo = (op ++ (hi ++ lo : BitVec (8 + 8)) : BitVec (8 + 16)) :=
  BitVec.append_assoc

/-- The operand's bytes stand behind the opcode, the high one first. -/
theorem commandBytes_eq_fields (w : BitVec 24) :
    commandBytes w = [opcodeOf w, (operandOf w).extractLsb' 8 8, (operandOf w).extractLsb' 0 8] := by
  simp [commandBytes, opcodeOf, operandOf, BitVec.extractLsb'_extractLsb'_of_le]

theorem opcodeOf_commandOfBytes (op hi lo : Byte) : opcodeOf (commandOfBytes op hi lo) = op := by
  rw [commandOfBytes_eq_append, opcodeOf_append]

theorem operandOf_commandOfBytes (op hi lo : Byte) : operandOf (commandOfBytes op hi lo) = hi ++ lo := by
  rw [commandOfBytes_eq_append, operandOf_append]

theorem commandBytes_commandOfBytes (op hi lo : Byte) : commandBytes (commandOfBytes op hi lo) = [op, hi, lo] := by
  rw [commandBytes_eq_fields, opcodeOf_commandOfBytes, operandOf_commandOfBytes,
    BitVec.extractLsb'_append_eq_left, BitVec.extractLsb'_append_eq_right]

namespace Machine

/-! ### A command on the state it left (R75) -/

/-- On this state the instruction does nothing but answer. -/
def OnlyAnswers (i : Instr) (s : State) : Prop := ∃ o : Output, exec i s = .next { s with out := o }

/-- A command with an operand, given by what it does on a legal one: if that is idempotent but for the answer, so is the
command, since an illegal operand is refused the second time as it was the first. -/
theorem onlyAnswers_of_withOperand {i : Instr} {f : Format} {x : Word} {run : State → State} {s t : State}
    (hexec : ∀ s, exec i s = withOperand f x s (run s)) (hrun : ∃ o, run (run s) = { run s with out := o })
    (h : exec i s = .next t) : OnlyAnswers i t := by
  rw [hexec] at h
  obtain ⟨hlegal, e⟩ | ⟨hlegal, _⟩ := withOperand_cases f x s (run s)
  · cases e.symm.trans h
    obtain ⟨o, again⟩ := hrun
    exact ⟨o, by rw [hexec, withOperand_legal hlegal, again]⟩
  · exact ⟨_, (hexec t).trans (withOperand_illegal hlegal _ _)⟩

@[simp] theorem adiff_self (a : Angle) : adiff a a = 0 := by simp [adiff]

/-- A target just committed is at distance 0 from itself, so it is held whatever `ON_HYST` is (R242). -/
theorem targetHeld_commitTarget (cfg : Cfg) (angle : Word) (mc : MC) :
    (mc.commitTarget angle).targetHeld cfg angle = true := by
  simp [MC.targetHeld]

/-- `SET_TARGET` after itself is a no-op: a target that was held is held again, and a target that was committed is now
the one to compare with (R242). -/
theorem onlyAnswers_setTarget {angle : Word} {s t : State} (h : exec (.setTarget angle) s = .next t) :
    OnlyAnswers (.setTarget angle) t := by
  refine onlyAnswers_of_withOperand (fun _ => rfl) ?_ h
  cases held : s.mc.targetHeld s.cfg angle with
  | true => exact ⟨_, by simp [held]; rfl⟩
  | false => exact ⟨_, by simp [targetHeld_commitTarget]; rfl⟩

/-- Every command only answers on the state that it left: a write of a constant or of the operand writes it again, and
a mask applied twice clears what it cleared once (R247, R248). -/
theorem onlyAnswers_of_exec {i : Instr} {s t : State} (hi : Claims.isCommand i = true) (h : exec i s = .next t) :
    OnlyAnswers i t := by
  cases i with
  | evHwprot | evAdc | evMtick | evAtick | evRst => exact absurd hi Bool.false_ne_true
  | reqHstop | clrHstop => cases h; exact ⟨_, rfl⟩
  | setTarget angle => exact onlyAnswers_setTarget h
  | setCurpos angle | setSofs angle => exact onlyAnswers_of_withOperand (fun _ => rfl) ⟨_, rfl⟩ h
  | clrStall scope | clrFault scope =>
    exact onlyAnswers_of_withOperand (fun _ => rfl) ⟨_, by simp [BitVec.and_assoc]; rfl⟩ h
  | getState | getStall | getFault | getTarget | getCurpos | getSofs | getAngle | getVsCond | getIgnCond | getTempCond
  | getMcuCond | getHwCond | getVs | getIgn | getTemp | getImot => exact ⟨_, rfl⟩

/-! ### The obligations -/

/-- Settles O56: the first issue leaves a state on which the second only answers. -/
theorem commandsIdempotent : Obligations.CommandsIdempotent := by
  intro i s hi
  obtain ⟨t, first, _, _⟩ := exec_next i s
  obtain ⟨o, second⟩ := onlyAnswers_of_exec hi first
  exact ⟨t, { t with out := o }, first, second, rfl⟩

/-- Settles O5: three bytes are an opcode and the two halves of an operand, and `responseBytes` lists its bytes in the
order of R73. -/
theorem serialOrderMostSignificantFirst : Obligations.SerialOrderMostSignificantFirst :=
  ⟨fun op hi lo =>
    ⟨commandBytes_commandOfBytes op hi lo, opcodeOf_commandOfBytes op hi lo, operandOf_commandOfBytes op hi lo⟩,
    fun _ => ⟨rfl, rfl, rfl⟩⟩

end Machine

end Sys2Proof
end

section
/-! The encoder and the decoder are inverse to each other (R90, R91, R95, R96); the step on a refused command and on no
strobe (R260, U36); eight identical conversions (R100, R121). -/

namespace Sys2Proof

/-! ### From an instruction to its ports and back (R90, R95, R96) -/

/-- The decoder on a word built from an assigned opcode: the operand alone decides (R95). -/
theorem decodeCommand_commandWord {op : BitVec 8} {f : Format} {make : Word → Instr}
    (hrow : rowOf op = some ⟨op, f, make⟩) (x : Word) :
    decodeCommand (commandWord op x) = if f.legal x = true then .ok (make x) else .error .badArg := by
  rw [commandWord, decodeCommand_append, hrow]

/-- The ports that present a command with an operand: what is legal for the row is what is well formed (R90). -/
theorem decode_command_operand {op : BitVec 8} {f : Format} {make : Word → Instr} {x : Word}
    (hrow : rowOf op = some ⟨op, f, make⟩) (hwf : (make x).wf = f.legal x) :
    decode (commandInputs (commandWord op x)) =
      some (if (make x).wf = true then .ok (make x) else .error .badArg) := by
  rw [decode_commandInputs, decodeCommand_commandWord hrow, hwf]

/-- A command of format `N` is encoded with operand 0, its one legal operand. -/
theorem decode_command_noOperand {op : BitVec 8} {i : Instr} (hrow : rowOf op = some ⟨op, .n, fun _ => i⟩) :
    decode (commandInputs (commandWord op 0)) = some (.ok i) := by
  rw [decode_commandInputs, decodeCommand_commandWord hrow]; rfl

/-- The ports with the one bit of an event in `ev` ask for that event before any command (R11, R91). -/
theorem decode_event {p : Inputs} {e : Strobe} (he : e ≠ .cmd) (hev : p.ev = strobeBit e) :
    decode p = some (decodeStrobe p e) := by
  have hfirst : firstStrobe p = some e := by
    rw [firstStrobe_eq_bits, hev]
    cases e with
    | cmd => exact absurd rfl he
    | rst | hwprot | adc | mtick | atick => rfl
  rw [decode, hfirst]; rfl

/-! ### From a command word to its instruction and back (R90, R96) -/

/-- The decoder answers an instruction only through a row of the table, on an operand legal for that row. -/
theorem decodeCommand_eq_ok {w : BitVec 24} {i : Instr} (h : decodeCommand w = .ok i) :
    ∃ r ∈ commandTable, r.opcode = opcodeOf w ∧ r.format.legal (operandOf w) = true ∧ i = r.make (operandOf w) := by
  unfold decodeCommand at h
  cases hrow : rowOf (opcodeOf w) with
  | none => simp [hrow] at h
  | some r =>
    obtain ⟨hmem, hop⟩ := rowOf_eq_some hrow
    simp only [hrow] at h
    split at h
    next hlegal => exact ⟨r, hmem, hop, hlegal, (Except.ok.inj h).symm⟩
    next => cases h

namespace CommandRow

/-- A row of the table agrees with the encoder: from a legal operand it makes a well-formed instruction, which is encoded
as the row's opcode with that operand. -/
def Encodes (r : CommandRow) : Prop :=
  ∀ x : Word, r.format.legal x = true →
    (r.make x).wf = true ∧ encode (r.make x) = commandInputs (commandWord r.opcode x)

theorem encodes_noOperand {op : BitVec 8} {i : Instr} (hwf : i.wf = true)
    (henc : encode i = commandInputs (commandWord op 0)) : Encodes ⟨op, .n, fun _ => i⟩ := by
  intro x hx
  obtain rfl : x = 0#16 := by simpa using hx
  exact ⟨hwf, henc⟩

theorem encodes_operand {op : BitVec 8} {f : Format} {make : Word → Instr} (hwf : ∀ x, (make x).wf = f.legal x)
    (henc : ∀ x, encode (make x) = commandInputs (commandWord op x)) : Encodes ⟨op, f, make⟩ :=
  fun x hx => ⟨(hwf x).trans hx, henc x⟩

/-- The decoder's table and the encoder, written apart from each other, agree row by row (R96). -/
theorem encodes_of_mem : ∀ r ∈ commandTable, r.Encodes := by
  simp only [commandTable, List.forall_mem_cons]
  refine ⟨?reqHstop, ?clrHstop, ?setTarget, ?setCurpos, ?getState, ?getStall, ?getFault, ?clrStall, ?clrFault, ?getTarget,
    ?getCurpos, ?setSofs, ?getSofs, ?getAngle, ?getVsCond, ?getIgnCond, ?getTempCond, ?getMcuCond, ?getHwCond, ?getVs,
    ?getIgn, ?getTemp, ?getImot, List.forall_mem_nil _⟩
  case setTarget | setCurpos | setSofs | clrStall | clrFault => exact encodes_operand (fun _ => rfl) (fun _ => rfl)
  all_goals exact encodes_noOperand rfl rfl

end CommandRow

theorem encode_of_decodeCommand {w : BitVec 24} {i : Instr} (h : decodeCommand w = .ok i) :
    i.wf = true ∧ encode i = commandInputs w := by
  obtain ⟨r, hmem, hop, hlegal, rfl⟩ := decodeCommand_eq_ok h
  have hrow := CommandRow.encodes_of_mem r hmem (operandOf w) hlegal
  rwa [hop, commandWord, opcode_append_operand] at hrow

/-! ### Which strobe stands alone (R11, U36) -/

/-- A command is taken only when no event is asserted: it is the last in the order of R11. -/
theorem isAsserted_eq_false_of_firstStrobe_cmd {p : Inputs} (h : firstStrobe p = some .cmd) {e : Strobe} (he : e ≠ .cmd) :
    isAsserted p e = false := by
  have horder : strobeOrder = [.rst, .hwprot, .adc, .mtick, .atick] ++ [.cmd] := rfl
  rw [firstStrobe, horder, List.find?_append, Option.or_eq_some_iff] at h
  obtain hevent | ⟨hnone, _⟩ := h
  · exact absurd (List.mem_of_find?_eq_some hevent) (by decide)
  · have hmem : e ∈ [.rst, .hwprot, .adc, .mtick, .atick] := by revert he; cases e <;> decide
    simpa using List.find?_eq_none.1 hnone e hmem

theorem firstStrobe_takeStrobe_cmd {p : Inputs} (h : firstStrobe p = some .cmd) :
    firstStrobe (takeStrobe p .cmd) = none := by
  rw [firstStrobe_eq_none]
  intro e
  by_cases he : e = .cmd
  · subst he; exact isAsserted_takeStrobe_self p .cmd
  · rw [isAsserted_takeStrobe_of_ne p he, isAsserted_eq_false_of_firstStrobe_cmd h he]

theorem firstStrobe_quiet {p : Inputs} (hev : p.ev = 0) (hcmd : p.cmdValid = false) : firstStrobe p = none := by
  rw [firstStrobe_eq_none]
  intro e
  by_cases he : e = .cmd
  · subst he; exact hcmd
  · simp [isAsserted_event p he, hev]

namespace Machine

/-! ### The step on a refused command and on no strobe (R260, U36) -/

/-- With its command taken, the last strobe of the order, a cycle has nothing left to ask. -/
theorem restInputs_cmd {p : Inputs} (h : firstStrobe p = some .cmd) (rest : List Inputs) :
    restInputs p .cmd rest = rest := by
  simp [restInputs, firstStrobe_takeStrobe_cmd h]

theorem step_of_refused_command {s : State} {p : Inputs} {rest : List Inputs} {err : CmdError} (hwf : s.cfg.wf = true)
    (hq : s.inq = p :: rest) (hcmd : firstStrobe p = some .cmd) (herr : decodeCommand p.cmdWord = .error err) :
    step s = .next (State.raise err { s with inq := rest }) := by
  have hfetch : fetch s = .refuse err { s with inq := rest } := by
    simp only [fetch, hq, hcmd, decodeStrobe, herr, restInputs_cmd hcmd]
  simp only [step, hwf, hfetch, if_true]

theorem step_of_nil {s : State} (hwf : s.cfg.wf = true) (hq : s.inq = []) : step s = .next s := by
  have hfetch : fetch s = .idle := by simp only [fetch, hq]
  simp only [step, hwf, hfetch, if_true]

theorem step_of_quiet {s : State} {p : Inputs} {rest : List Inputs} (hwf : s.cfg.wf = true) (hq : s.inq = p :: rest)
    (hnone : firstStrobe p = none) : step s = .next { s with inq := rest } := by
  have hfetch : fetch s = .quiet { s with inq := rest } := by simp only [fetch, hq, hnone]
  simp only [step, hwf, hfetch, if_true]

/-! ### Repeated conversions (R100, R120, R121) -/

theorem execAll_cons {i : Instr} {s t : State} (h : exec i s = .next t) (is : List Instr) :
    Claims.execAll (i :: is) s = Claims.execAll is t := by
  simp only [Claims.execAll, h]

/-- A slot among the first `n + 1` from the write index on is that index, or among the first `n` after it. -/
theorem toNat_sub_lt_succ_iff (i w : BitVec 3) (n : Nat) :
    (i - w).toNat < n + 1 ↔ (i - (w + 1)).toNat < n ∨ i = w := by
  bv_omega

/-- One conversion (R120): the write index one on, and the sample in the slot it pointed to. -/
theorem exec_evAdc_reads (raw : Samples) (s : State) (hmem : s.mem.wf = true) :
    ∃ t, exec (.evAdc raw) s = .next t ∧ t.mem.wf = true ∧ t.sf = { s.sf with widx := s.sf.widx + 1 } ∧
      ∀ c i, t.mem.readWord (wordAddr c i) = if i = s.sf.widx then sampleOf raw c else s.mem.readWord (wordAddr c i) := by
  have hwf := writeSamples_wf s.mem s.sf.widx raw hmem
  have hread (c : Channel) (i : BitVec 3) := readWord_writeSamples s.mem s.sf.widx raw c i hmem
  rw [exec_evAdc]
  generalize s.mem.writeSamples s.sf.widx raw = m at hwf hread ⊢
  exact ⟨_, rfl, hwf, rfl, hread⟩

/-- What `n` identical conversions leave: the write index `n` on modulo 8, and the sample in each slot among the first `n`
from the old write index on. -/
theorem execAll_replicate_evAdc (raw : Samples) (n : Nat) (s : State) (hmem : s.mem.wf = true) :
    ∃ t, Claims.execAll (List.replicate n (.evAdc raw)) s = .next t ∧
      t.sf = { s.sf with widx := s.sf.widx + BitVec.ofNat 3 n } ∧
      ∀ c i, t.mem.readWord (wordAddr c i) =
        if (i - s.sf.widx).toNat < n then sampleOf raw c else s.mem.readWord (wordAddr c i) := by
  induction n generalizing s with
  | zero => exact ⟨s, rfl, by simp, by simp⟩
  | succ n ih =>
    obtain ⟨s', hfirst, hmem', hsf', hread'⟩ := exec_evAdc_reads raw s hmem
    obtain ⟨t, hrest, hsf, hread⟩ := ih s' hmem'
    refine ⟨t, (execAll_cons hfirst _).trans hrest, ?_, fun c i => ?_⟩
    · rw [hsf, hsf', BitVec.add_assoc, Nat.add_comm n, BitVec.ofNat_add]; rfl
    · simp only [hread, hread', hsf', toNat_sub_lt_succ_iff, ite_or]

/-- A window of one repeated sample averages to it: the floor of R121 loses nothing. -/
theorem avg_of_constant_window {m : Memory} {c : Channel} {v : Word} (h : ∀ i, m.readWord (wordAddr c i) = v) :
    avg m c = v.toNat := by
  simp only [avg, Memory.window, allSlots, h, List.map_cons, List.map_nil, List.sum_cons, List.sum_nil]
  omega

/-! ### The obligations -/

/-- Settles O1: an event is its own strobe; a command goes through its row of the table, where an operand it carries is
checked and one it does not carry is 0. -/
theorem decodeInvertsEncode : Obligations.DecodeInvertsEncode := by
  intro i
  cases i with
  | setTarget | setCurpos | setSofs | clrStall | clrFault => exact decode_command_operand rfl rfl
  | reqHstop | clrHstop | getState | getStall | getFault | getTarget | getCurpos | getSofs | getAngle | getVsCond
  | getIgnCond | getTempCond | getMcuCond | getHwCond | getVs | getIgn | getTemp | getImot =>
    exact decode_command_noOperand rfl
  | evHwprot m => exact decode_event (e := .hwprot) (by decide) rfl
  | evAdc raw => exact decode_event (e := .adc) (by decide) rfl
  | evMtick => exact decode_event (e := .mtick) (by decide) rfl
  | evAtick => exact decode_event (e := .atick) (by decide) rfl
  | evRst => exact decode_event (e := .rst) (by decide) rfl

/-- Settles O2: what decodes comes from a row of the table, and every row agrees with the encoder. -/
theorem encodeInvertsDecodeCommand : Obligations.EncodeInvertsDecodeCommand :=
  fun _ _ h => encode_of_decodeCommand h

/-- Settles O23: eight conversions reach every slot of every window and bring the write index back. -/
theorem fillSetsEveryReading : Obligations.FillSetsEveryReading := by
  intro s raw hmem
  obtain ⟨t, hrun, hsf, hread⟩ := execAll_replicate_evAdc raw 8 s hmem
  have hslot (c : Channel) (i : BitVec 3) : t.mem.readWord (wordAddr c i) = sampleOf raw c := by
    rw [hread, if_pos (i - s.sf.widx).isLt]
  exact ⟨t, hrun, by simpa using hsf, fun c => ⟨avg_of_constant_window (hslot c), congrArg BitVec.toNat (hslot c _)⟩⟩

/-- Settles O4: each word is evaluated. -/
theorem specWordsDecode : Obligations.SpecWordsDecode :=
  ⟨rfl, rfl, rfl, rfl, rfl, rfl, rfl, rfl, rfl, rfl, rfl, rfl⟩

/-- Settles O7: the step raises the decoder's refusal on the state with the word taken (R260). -/
theorem refusedCommandChangesNothing : Obligations.RefusedCommandChangesNothing :=
  fun _ _ _ hwf hq hcmd => ⟨step_of_refused_command hwf hq hcmd, step_of_refused_command hwf hq hcmd⟩

/-- Settles O10: no cycle on the ports, and a cycle that asserts nothing. -/
theorem noStrobeIsNoEvent : Obligations.NoStrobeIsNoEvent :=
  fun _ hwf => ⟨step_of_nil hwf, fun _ _ hq hev hvalid => step_of_quiet hwf hq (firstStrobe_quiet hev hvalid)⟩

end Machine

end Sys2Proof
end

section
/-! Sensor Fusion (40_sensor_fusion.md): the zero-point (R130, R131), one conversion (R120), and the angle (R121 to R128,
R132). -/

namespace Sys2Proof

/-! ### An opcode and its one operand range (R90, R95) -/

theorem decodesN_of_rowOf {op : BitVec 8} {i : Instr} (hrow : rowOf op = some ⟨op, .n, fun _ => i⟩) :
    Claims.DecodesN op i := by
  intro x
  rw [← commandWord, decodeCommand_commandWord hrow]
  simp only [legal_n, decide_eq_true_eq]

theorem decodesBelow_of_rowOf {op : BitVec 8} {f : Format} {bound : Nat} {make : Word → Instr}
    (hrow : rowOf op = some ⟨op, f, make⟩) (hlegal : ∀ x, f.legal x = true ↔ x.toNat < bound) :
    Claims.DecodesBelow op bound make := by
  intro x
  rw [← commandWord, decodeCommand_commandWord hrow]
  simp only [hlegal]

namespace Machine

/-! ### The four instructions on a state -/

theorem exec_setSofs_legal {x : Word} (h : x.toNat < 3600) (s : State) :
    exec (.setSofs x) s =
      .next (Claims.answered { s with sf := { s.sf with sensorOffset := BitVec.ofNat 12 x.toNat } } .ok 0) :=
  withOperand_legal ((legal_a x).trans (decide_eq_true h)) _ _

theorem exec_setSofs_illegal {x : Word} (h : 3600 ≤ x.toNat) (s : State) :
    exec (.setSofs x) s = .next (Claims.answered s .badArg 0) :=
  withOperand_illegal ((legal_a x).trans (decide_eq_false (Nat.not_lt.2 h))) _ _

theorem exec_getSofs (s : State) : exec .getSofs s = .next (Claims.answered s .ok s.sf.sensorOffset.toNat) := by
  rw [Claims.answered, BitVec.ofNat_toNat]; rfl

theorem exec_getAngle (s : State) : exec .getAngle s = .next (Claims.answered s .ok s.angle) := rfl

/-! ### Averages (R121) -/

/-- The model's sum over the window is the sum of the eight slots. -/
theorem avg_eq_average (m : Memory) (c : Channel) : avg m c = Claims.average m c := by
  simp only [avg, Memory.window, allSlots, List.map_cons, List.map_nil, List.sum_cons, List.sum_nil, Claims.average,
    Claims.slot]
  omega

/-- A sum does not see the order of its terms (R127). -/
theorem avg_eq_of_window_perm {m m' : Memory} {c : Channel} (h : (m.window c).Perm (m'.window c)) :
    avg m c = avg m' c := by
  rw [avg, avg, (h.map BitVec.toNat).sum_eq]

/-! ### Components (R123) -/

/-- Inside the clamp a component is the plain difference. -/
theorem component_of_within {pos neg : Nat} {ofs : Int} {bound : Nat} (hlo : -(bound : Int) ≤ pos - neg - ofs)
    (hhi : (pos : Int) - neg - ofs ≤ bound) : component pos neg ofs bound = pos - neg - ofs := by
  rw [component, clamp, min_eq_left hhi, max_eq_right hlo]

/-! ### The octant remap (R125) -/

/-- What R9 asks of the octant table, at any of its eight entries. -/
theorem octBase_getD_of_wf {cfg : Cfg} (h : cfg.wf = true) {k : Nat} (hk : k < 8) :
    cfg.OCT_BASE.toList.getD k 0 ≤ 3599 ∧ cfg.OCT_BASE.toList.getD k 0 + cfg.OCT_SPAN ≤ 3600 := by
  obtain ⟨_, _, hbase, _⟩ := (wf_iff_wellFormedConfig cfg).1 h
  have hlen : k < cfg.OCT_BASE.toList.length := by simpa using hk
  rw [List.getD_eq_getElem _ _ hlen]
  exact hbase _ (List.getElem_mem hlen)

/-- Under a well-formed configuration the remap stays in its octant's span, so below a full turn. -/
theorem remap_lt_of_wf {cfg : Cfg} (h : cfg.wf = true) (frac : BitVec 16) : remap cfg frac < 3600 := by
  have hu : frac.toNat < 65536 := frac.isLt
  obtain ⟨hbase, hspan⟩ := octBase_getD_of_wf h (show frac.toNat / 8192 < 8 by omega)
  have hpart : frac.toNat % 8192 * cfg.OCT_SPAN ≤ 8191 * cfg.OCT_SPAN := Nat.mul_le_mul_right _ (by omega)
  rw [remap]
  omega

/-- `REFCFG` lays the octants out evenly. -/
theorem refCfg_octBase_getD : ∀ k < 8, refCfg.OCT_BASE.toList.getD k 0 = 450 * k := by decide

theorem remap_refCfg (frac : BitVec 16) : remap refCfg frac = frac.toNat * 3600 / 65536 := by
  have hu : frac.toNat < 65536 := frac.isLt
  have hspan : refCfg.OCT_SPAN = 450 := rfl
  rw [remap, refCfg_octBase_getD _ (by omega), hspan]
  omega

/-- The pattern at the start of octant `k` is remapped to `k` eighths of a turn. -/
theorem remap_refCfg_octant_start {k : Nat} (hk : k < 8) : remap refCfg (BitVec.ofNat 16 (8192 * k)) = 450 * k := by
  rw [remap_refCfg, BitVec.toNat_ofNat]
  omega

/-! ### The eight directions (R128) -/

theorem directions_bounds : ∀ dir ∈ Claims.directions,
    (-1 ≤ dir.1 ∧ dir.1 ≤ 1) ∧ (-1 ≤ dir.2.1 ∧ dir.2.1 ≤ 1) ∧ dir.2.2 < 8 := by decide

/-- The values that `ATAN2_OCT` fixes are the starts of the octants, as 16-bit patterns. -/
theorem atan2Oct_of_direction {f : BitVec 16 → BitVec 16 → BitVec 16} (hf : Claims.Atan2Oct f) {a : Nat} (hpos : 1 ≤ a)
    (hmax : a ≤ 32767) : ∀ dir ∈ Claims.directions,
      f (BitVec.ofInt 16 (a * dir.2.1)) (BitVec.ofInt 16 (a * dir.1)) = BitVec.ofNat 16 (8192 * dir.2.2) := by
  obtain ⟨east, northEast, north, northWest, west, southWest, south, southEast⟩ := hf a hpos hmax
  simp only [Claims.directions, List.forall_mem_cons, mul_one, mul_zero, mul_neg]
  exact ⟨east, northEast, north, northWest, west, southWest, south, southEast, List.forall_mem_nil _⟩

/-- `REFCFG` has no offset and a clamp that a difference of `a` or less does not reach. -/
theorem component_refCfg {pos neg a : Nat} {sign : Int} (hmax : a ≤ 32767) (hsign : -1 ≤ sign ∧ sign ≤ 1)
    (h : (pos : Int) - neg = a * sign) : component pos neg 0 32767 = a * sign := by
  obtain rfl | rfl | rfl : sign = -1 ∨ sign = 0 ∨ sign = 1 := by omega
  all_goals rw [component_of_within] <;> omega

/-! ### The obligations -/

/-- Settles O18: the bound of R9 on every entry of the octant table. -/
theorem remapBelow3600 : Obligations.RemapBelow3600 := fun _ frac hwf => remap_lt_of_wf hwf frac

/-- Settles O19: an even octant table makes the remap one linear map. -/
theorem referenceRemapIsUniform : Obligations.ReferenceRemapIsUniform := remap_refCfg

/-- Settles O20: no component is clamped, the arctangent is exact, and the remap takes it to its octant's start. -/
theorem eightDirectionsExact : Obligations.EightDirectionsExact := by
  intro f hf m offset a hpos hmax dir hdir hsin hcos
  obtain ⟨hsinSign, hcosSign, hoct⟩ := directions_bounds dir hdir
  have hsine : component (avg m .sinp) (avg m .sinn) refCfg.SIN_OFS refCfg.SINCOS_MAX = a * dir.1 :=
    component_refCfg hmax hsinSign (by simpa only [avg_eq_average] using hsin)
  have hcosine : component (avg m .cosp) (avg m .cosn) refCfg.COS_OFS refCfg.SINCOS_MAX = a * dir.2.1 :=
    component_refCfg hmax hcosSign (by simpa only [avg_eq_average] using hcos)
  simp only [angleWith, hsine, hcosine, atan2Oct_of_direction hf hpos hmax dir hdir, remap_refCfg_octant_start hoct]

/-- Settles O21: the angle reads the memory through four averages only. -/
theorem angleIgnoresSampleOrder : Obligations.AngleIgnoresSampleOrder := by
  intro f cfg m m' offset hperm
  have havg (c : Channel) (hc : c ∈ ([.sinp, .sinn, .cosp, .cosn] : List Channel)) : avg m c = avg m' c :=
    avg_eq_of_window_perm (hperm c hc)
  simp only [angleWith, havg .sinp (by simp), havg .sinn (by simp), havg .cosp (by simp), havg .cosn (by simp)]

/-- Settles O22: the words and bytes that the ten writes of R120 leave, and the write index modulo 8. -/
theorem adcWritesOneSlotPerChannel : Obligations.AdcWritesOneSlotPerChannel := by
  refine ⟨fun raw => decode_event (e := .adc) (by decide) rfl, fun s raw hmem => ?_⟩
  have hword (c : Channel) (i : BitVec 3) := readWord_writeSamples s.mem s.sf.widx raw c i hmem
  have hbyte (k : Nat) := readByte_writeSamples s.mem s.sf.widx raw k hmem
  rw [exec_evAdc]
  generalize s.mem.writeSamples s.sf.widx raw = m at hword hbyte ⊢
  exact ⟨_, rfl, hword, hbyte, BitVec.toNat_add _ _, rfl⟩

/-- Settles O16: the two operand ranges of `SET_SOFS`, and the register that `GET_SOFS` reads. -/
theorem sensorOffsetCommands : Obligations.SensorOffsetCommands := by
  refine ⟨⟨decodesBelow_of_rowOf (f := .a) rfl (by simp), decodesN_of_rowOf rfl⟩, fun s x => ⟨?_, exec_getSofs s, rfl⟩⟩
  split
  next h => exact exec_setSofs_illegal h s
  next h => exact exec_setSofs_legal (Nat.not_le.1 h) s

/-- Settles O17: `GET_ANGLE` answers the pipeline of R127, on averages taken over the eight slots. -/
theorem getAngleAnswersTheAngle : Obligations.GetAngleAnswersTheAngle := by
  refine ⟨decodesN_of_rowOf rfl, fun s => ?_⟩
  simp only [exec_getAngle, State.angle, angleWith, component, clamp, remap, avg_eq_average]

end Machine

end Sys2Proof
end

section
/-! The Protection Monitor (41_protection_monitor.md): the latch event (R140), the debounced monitor alone (R141, R150),
the six conditions and the re-arm mask on the application tick (R143 to R149), and the getters (R160 to R168). -/

namespace Sys2Proof.Machine

/-! ### A debounced count (R15, R141) -/

/-- The one shape of every debounced condition: a crossing sample that completes the count trips it, any other sample is
counted. -/
theorem debounce_eq {α : Type} (cnt : Word) (crosses : Prop) [Decidable crosses] (trip : Nat) (tripped held : α) :
    (if decide crosses = true ∧ trip ≤ (updown cnt (decide crosses)).toNat then (tripped, 0)
      else (held, updown cnt (decide crosses))) =
    if crosses ∧ trip ≤ min (cnt.toNat + 1) 65535 then (tripped, 0)
      else (held, BitVec.ofNat 16 (Claims.counted cnt.toNat crosses)) := by
  by_cases h : crosses
  · rw [decide_eq_true h, updown_toNat, updown_eq]
    simp [h, Claims.counted]
  · simp [h, updown_eq, Claims.counted]

/-- `MON` for whatever proposition says that the reading crosses in the present condition. -/
theorem mon_eq_of_crosses_iff {cond : Side} {v lowStop lowRet highRet highStop : Nat} {crosses : Prop}
    [Decidable crosses]
    (h : monCrosses cond v lowStop lowRet highRet highStop = true ↔ crosses) (cnt : Word) (trip : Nat) :
    mon cond cnt v lowStop lowRet highRet highStop trip =
      if crosses ∧ trip ≤ min (cnt.toNat + 1) 65535 then (monTarget cond v lowStop, 0)
      else (cond, BitVec.ofNat 16 (Claims.counted cnt.toNat crosses)) := by
  rw [← debounce_eq, ← Bool.eq_iff_iff.2 (h.trans decide_eq_true_iff.symm)]
  rfl

/-! ### Runs of `MON` (R150) -/

section Runs

variable {lowStop lowRet highRet highStop trip : Nat} {cond : Side} {cnt : Word} {v : Nat}

theorem monCrosses_normal :
    monCrosses .normal v lowStop lowRet highRet highStop = true ↔ v < lowStop ∨ highStop < v := by
  simp [monCrosses]

theorem monCrosses_low : monCrosses .low v lowStop lowRet highRet highStop = true ↔ lowRet < v := by simp [monCrosses]

theorem monCrosses_high : monCrosses .high v lowStop lowRet highRet highStop = true ↔ v < highRet := by
  simp [monCrosses]

/-- A reading that crosses nothing keeps the condition and counts down. -/
theorem mon_of_not_crosses (h : ¬ monCrosses cond v lowStop lowRet highRet highStop = true) :
    mon cond cnt v lowStop lowRet highRet highStop trip = (cond, BitVec.ofNat 16 (cnt.toNat - 1)) := by
  simp [mon_eq_of_crosses_iff Iff.rfl, h, Claims.counted]

/-- A crossing reading that does not complete the count keeps the condition and counts up. -/
theorem mon_of_crosses_of_lt (h : monCrosses cond v lowStop lowRet highRet highStop = true) (hmax : trip ≤ 65535)
    (hcnt : cnt.toNat + 1 < trip) :
    mon cond cnt v lowStop lowRet highRet highStop trip = (cond, BitVec.ofNat 16 (cnt.toNat + 1)) := by
  have hmin : min (cnt.toNat + 1) 65535 = cnt.toNat + 1 := by omega
  simp [mon_eq_of_crosses_iff Iff.rfl, h, Claims.counted, hmin, hcnt]

/-- A crossing reading that completes the count trips. -/
theorem mon_of_crosses_of_eq (h : monCrosses cond v lowStop lowRet highRet highStop = true) (hmax : trip ≤ 65535)
    (hcnt : cnt.toNat + 1 = trip) :
    mon cond cnt v lowStop lowRet highRet highStop trip = (monTarget cond v lowStop, 0) := by
  have hmin : trip ≤ min (cnt.toNat + 1) 65535 := by omega
  simp [mon_eq_of_crosses_iff Iff.rfl, h, hmin]

@[simp] theorem monAll_nil (start : Side × Word) :
    Claims.monAll lowStop lowRet highRet highStop trip [] start = start := rfl

@[simp] theorem monAll_cons (readings : List Nat) :
    Claims.monAll lowStop lowRet highRet highStop trip (v :: readings) (cond, cnt) =
      Claims.monAll lowStop lowRet highRet highStop trip readings
        (mon cond cnt v lowStop lowRet highRet highStop trip) := rfl

theorem monAll_append (readings more : List Nat) (start : Side × Word) :
    Claims.monAll lowStop lowRet highRet highStop trip (readings ++ more) start =
      Claims.monAll lowStop lowRet highRet highStop trip more
        (Claims.monAll lowStop lowRet highRet highStop trip readings start) := List.foldl_append

/-- Readings that cross nothing count down one by one. -/
theorem monAll_of_not_crosses {readings : List Nat}
    (h : ∀ v ∈ readings, ¬ monCrosses cond v lowStop lowRet highRet highStop = true) :
    Claims.monAll lowStop lowRet highRet highStop trip readings (cond, cnt) =
      (cond, BitVec.ofNat 16 (cnt.toNat - readings.length)) := by
  induction readings generalizing cnt with
  | nil => simp
  | cons v readings ih =>
    obtain ⟨hv, hrest⟩ := List.forall_mem_cons.1 h
    have hcnt : (BitVec.ofNat 16 (cnt.toNat - 1)).toNat = cnt.toNat - 1 := toWord_toNat _ (by omega)
    rw [monAll_cons, mon_of_not_crosses hv, ih hrest, hcnt, List.length_cons, Nat.sub_sub, Nat.add_comm]

/-- Crossing readings that do not complete the count count up one by one. -/
theorem monAll_of_crosses {readings : List Nat}
    (h : ∀ v ∈ readings, monCrosses cond v lowStop lowRet highRet highStop = true) (hmax : trip ≤ 65535)
    (hcnt : cnt.toNat + readings.length < trip) :
    Claims.monAll lowStop lowRet highRet highStop trip readings (cond, cnt) =
      (cond, BitVec.ofNat 16 (cnt.toNat + readings.length)) := by
  induction readings generalizing cnt with
  | nil => simp
  | cons v readings ih =>
    obtain ⟨hv, hrest⟩ := List.forall_mem_cons.1 h
    rw [List.length_cons] at hcnt ⊢
    have hnext : (BitVec.ofNat 16 (cnt.toNat + 1)).toNat = cnt.toNat + 1 := toWord_toNat _ (by omega)
    rw [monAll_cons, mon_of_crosses_of_lt hv hmax (by omega), ih hrest (by omega), hnext, Nat.add_assoc,
      Nat.add_comm 1]

end Runs

/-! ### The monitors on the tick (R143 to R148) -/

section Monitors

variable {cfg : Cfg} {v : Nat} {hw : Latch} {outEn : Bool} {pm : PM}

theorem pmSupply_of_ov (hn : pm.vsCond = .normal) (hov : hw.getLsbD 0 = true) :
    (pmSupply cfg v hw pm).1.vsCond = .over ∧ (pmSupply cfg v hw pm).1.vsCnt = 0 := by
  simp [pmSupply, hn, hov]

theorem pmSupply_of_uv (hn : pm.vsCond = .normal) (hov : hw.getLsbD 0 = false) (huv : hw.getLsbD 1 = true) :
    (pmSupply cfg v hw pm).1.vsCond = .under ∧ (pmSupply cfg v hw pm).1.vsCnt = 0 := by
  simp only [pmSupply, hn, hasBit_latchOV, hasBit_latchUV, hov, huv, Bool.false_eq_true, and_false, and_self, if_false,
    if_true]

/-- Where no latch raises it, the supply condition is `MON` of the reading. -/
theorem pmSupply_eq_mon (h : pm.vsCond ≠ .normal ∨ (hw.getLsbD 0 = false ∧ hw.getLsbD 1 = false)) :
    (vsSide (pmSupply cfg v hw pm).1.vsCond, (pmSupply cfg v hw pm).1.vsCnt) =
      mon (vsSide pm.vsCond) pm.vsCnt v cfg.VS_UNDER_STOP cfg.VS_UNDER_RETURN cfg.VS_OVER_RETURN cfg.VS_OVER_STOP
        cfg.VS_DEB := by
  have hov : ¬ (pm.vsCond = .normal ∧ hasBit hw latchOV = true) := by
    simpa only [hasBit_latchOV, not_and_or, Bool.not_eq_true] using h.imp_right And.left
  have huv : ¬ (pm.vsCond = .normal ∧ hasBit hw latchUV = true) := by
    simpa only [hasBit_latchUV, not_and_or, Bool.not_eq_true] using h.imp_right And.right
  simp only [pmSupply, if_neg hov, if_neg huv, vsSide_sideVs]

/-- A reading is at most 65535, so the high side of the ignition monitor is never reached and `ignCond`
loses nothing. -/
theorem pmIgnition_eq_mon (hv : v ≤ 65535) :
    (ignSide (pmIgnition cfg v pm).ignCond, (pmIgnition cfg v pm).ignCnt) =
      mon (ignSide pm.ignCond) pm.ignCnt v cfg.IGN_OFF_STOP cfg.IGN_OFF_RETURN 0 65536 cfg.IGN_DEB := by
  simp only [pmIgnition, ignSide_sideIgn _ (mon_no_high _ _ _ _ _ _ (Nat.le_succ_of_le hv) (ignSide_ne_high _))]

theorem pmTemperature_of_ot (hn : pm.tCond = .normal) (hot : hw.getLsbD 2 = true) :
    (pmTemperature cfg v hw pm).1.tCond = .high ∧ (pmTemperature cfg v hw pm).1.tCnt = 0 := by
  simp [pmTemperature, hn, hot]

/-- Where no latch raises it, the temperature condition is `MON` of the reading. -/
theorem pmTemperature_eq_mon (h : pm.tCond ≠ .normal ∨ hw.getLsbD 2 = false) :
    (tSide (pmTemperature cfg v hw pm).1.tCond, (pmTemperature cfg v hw pm).1.tCnt) =
      mon (tSide pm.tCond) pm.tCnt v cfg.TEMP_LOW_STOP cfg.TEMP_LOW_RETURN cfg.TEMP_HIGH_RETURN cfg.TEMP_HIGH_STOP
        cfg.TEMP_DEB := by
  have hot : ¬ (pm.tCond = .normal ∧ hasBit hw latchOT = true) := by
    simpa only [hasBit_latchOT, not_and_or, Bool.not_eq_true] using h
  simp only [pmTemperature, if_neg hot, tSide_sideT]

theorem pmMcuHealth_of_ok (h : pm.mcuCond = .ok) :
    ((pmMcuHealth cfg v pm).mcuCond, (pmMcuHealth cfg v pm).mcuCnt) =
      if v < cfg.VDDA_FAULT ∧ cfg.VDDA_DEB ≤ min (pm.mcuCnt.toNat + 1) 65535 then (.fault, 0)
      else (.ok, BitVec.ofNat 16 (Claims.counted pm.mcuCnt.toNat (v < cfg.VDDA_FAULT))) := by
  rw [← debounce_eq]
  simp only [pmMcuHealth, h, if_true]
  split <;> rfl

theorem pmMcuHealth_of_fault (h : pm.mcuCond = .fault) :
    ((pmMcuHealth cfg v pm).mcuCond, (pmMcuHealth cfg v pm).mcuCnt) =
      if cfg.VDDA_OK < v ∧ cfg.VDDA_DEB ≤ min (pm.mcuCnt.toNat + 1) 65535 then (.ok, 0)
      else (.fault, BitVec.ofNat 16 (Claims.counted pm.mcuCnt.toNat (cfg.VDDA_OK < v))) := by
  rw [← debounce_eq]
  simp only [pmMcuHealth, h, reduceCtorEq, if_false]
  split <;> rfl

theorem pmHwOc_of_normal (h : pm.ocCond = .normal) :
    ((pmHwOc cfg v hw pm).1.ocCond, (pmHwOc cfg v hw pm).1.ocCnt) =
      if hw.getLsbD 3 = true then (.over, 0) else (.normal, pm.ocCnt) := by
  simp only [pmHwOc, h, if_true, hasBit_latchOC]
  split <;> simp [h]

theorem pmHwOc_of_over (h : pm.ocCond = .over) :
    ((pmHwOc cfg v hw pm).1.ocCond, (pmHwOc cfg v hw pm).1.ocCnt) =
      if v < cfg.HWOC_RETURN ∧ cfg.HW_DEB ≤ min (pm.ocCnt.toNat + 1) 65535 then (.normal, 0)
      else (.over, BitVec.ofNat 16 (Claims.counted pm.ocCnt.toNat (v < cfg.HWOC_RETURN))) := by
  rw [← debounce_eq]
  simp only [pmHwOc, h, reduceCtorEq, if_false]
  split <;> rfl

theorem pmHwVds_of_normal (h : pm.vdsCond = .normal) :
    ((pmHwVds cfg outEn hw pm).1.vdsCond, (pmHwVds cfg outEn hw pm).1.vdsCnt) =
      if hw.getLsbD 4 = true then (.short, 0) else (.normal, pm.vdsCnt) := by
  simp only [pmHwVds, h, if_true, hasBit_latchVDS]
  split <;> simp [h]

theorem pmHwVds_of_short (h : pm.vdsCond = .short) :
    ((pmHwVds cfg outEn hw pm).1.vdsCond, (pmHwVds cfg outEn hw pm).1.vdsCnt) =
      if outEn = false ∧ cfg.HW_DEB ≤ min (pm.vdsCnt.toNat + 1) 65535 then (.normal, 0)
      else (.short, BitVec.ofNat 16 (Claims.counted pm.vdsCnt.toNat (outEn = false))) := by
  have hoff : (!outEn) = decide (outEn = false) := by cases outEn <;> rfl
  rw [← debounce_eq]
  simp only [pmHwVds, h, reduceCtorEq, if_false, hoff]
  split <;> rfl

end Monitors

/-! ### The application tick (R142, R149) -/

theorem iavg_eq_filteredCurrent (m : Memory) : iavg m = Claims.filteredCurrent m := by
  simp only [iavg, avg_eq_average, Claims.filteredCurrent]

section Tick

variable {s t : State}

/-- What the tick does to the monitors' registers, the latches and the port `rearm`. -/
theorem evAtick_next (h : exec .evAtick s = .next t) :
    t.pm = (pmTick s.cfg s.mem s.hwpend s.mc.outEn s.pm).1 ∧
    t.rearmPort = (pmTick s.cfg s.mem s.hwpend s.mc.outEn s.pm).2 ∧ t.hwpend = s.hwpend &&& ~~~t.rearmPort := by
  rw [exec_evAtick] at h
  cases h
  exact ⟨rfl, rfl, rfl⟩

/-- A latch is re-armed exactly when the condition it raises returns to Normal with the latch pending. -/
theorem evAtick_rearm_iff (h : exec .evAtick s = .next t) :
    (t.rearmPort.getLsbD 0 = true ↔ s.pm.vsCond = .over ∧ t.pm.vsCond = .normal ∧ s.hwpend.getLsbD 0 = true) ∧
    (t.rearmPort.getLsbD 1 = true ↔ s.pm.vsCond = .under ∧ t.pm.vsCond = .normal ∧ s.hwpend.getLsbD 1 = true) ∧
    (t.rearmPort.getLsbD 2 = true ↔ s.pm.tCond = .high ∧ t.pm.tCond = .normal ∧ s.hwpend.getLsbD 2 = true) ∧
    (t.rearmPort.getLsbD 3 = true ↔ s.pm.ocCond = .over ∧ t.pm.ocCond = .normal ∧ s.hwpend.getLsbD 3 = true) ∧
    (t.rearmPort.getLsbD 4 = true ↔ s.pm.vdsCond = .short ∧ t.pm.vdsCond = .normal ∧ s.hwpend.getLsbD 4 = true) := by
  obtain ⟨hpm, hport, -⟩ := evAtick_next h
  have hbits := pmTick_rearm_bits s.cfg s.mem s.hwpend s.mc.outEn s.pm
  simp only [← hpm, ← hport] at hbits
  obtain ⟨hov, huv, hot, hoc, hvds⟩ := hbits
  simp only [hov, huv, hot, hoc, hvds, Bool.and_eq_true, decide_eq_true_eq, and_assoc, and_self]

end Tick

/-! ### The getters (R160 to R168) -/

theorem respond_eq_answered {data : Word} {n : Nat} (h : data = BitVec.ofNat 16 n) (s : State) :
    s.respond data = Claims.answered s .ok n := by rw [h]; rfl

/-! ### The obligations -/

/-- Settles O28: the crossing test of each condition, and the side it leads to. -/
theorem monitorStepFollowsThresholds : Obligations.MonitorStepFollowsThresholds := fun _ _ _ _ _ _ _ =>
  ⟨mon_eq_of_crosses_iff monCrosses_normal _ _, mon_eq_of_crosses_iff monCrosses_low _ _,
    mon_eq_of_crosses_iff monCrosses_high _ _⟩

/-- Settles O29: crossing readings count up to one short of the trip count, and the last one trips. -/
theorem debounceTripsExactlyAtCount : Obligations.DebounceTripsExactlyAtCount := by
  intro lowStop lowRet highRet highStop trip readings final _ hmax hlen hcross
  obtain ⟨hfinal, hreadings⟩ := List.forall_mem_cons.1 hcross
  have hcount (k : Nat) (hk : k ≤ readings.length) :
      Claims.monAll lowStop lowRet highRet highStop trip (readings.take k) (.normal, 0) =
        (.normal, BitVec.ofNat 16 k) := by
    have hzero : (0 : Word).toNat = 0 := rfl
    have htake : (readings.take k).length = k := List.length_take_of_le hk
    rw [monAll_of_crosses (fun v hv => monCrosses_normal.2 (hreadings v (List.mem_of_mem_take hv))) hmax] <;>
      rw [hzero, htake, Nat.zero_add]
    omega
  have hall := hcount readings.length le_rfl
  rw [List.take_length] at hall
  have hlast : (BitVec.ofNat 16 readings.length).toNat + 1 = trip := by
    rw [BitVec.toNat_ofNat]; omega
  refine ⟨hcount, ?_⟩
  rw [monAll_append, hall, monAll_cons, mon_of_crosses_of_eq (monCrosses_normal.2 hfinal) hmax hlast, monAll_nil,
    monTarget]

/-- Settles O30: one step down, one up, and one more that trips. -/
theorem debounceMissStepsBack : Obligations.DebounceMissStepsBack := by
  intro lowStop lowRet highRet highStop trip v miss v' cnt _ hmax hcnt hlo hhi hv hv'
  have hmiss : ¬ monCrosses .normal miss lowStop lowRet highRet highStop = true := by
    rw [monCrosses_normal]; omega
  have htwo : (BitVec.ofNat 16 (trip - 2)).toNat = trip - 2 := toWord_toNat _ (by omega)
  have hone : (BitVec.ofNat 16 (trip - 1)).toNat = trip - 1 := toWord_toNat _ (by omega)
  have hdown : mon .normal cnt miss lowStop lowRet highRet highStop trip = (.normal, BitVec.ofNat 16 (trip - 2)) := by
    rw [mon_of_not_crosses hmiss, show cnt.toNat - 1 = trip - 2 by omega]
  have hup : mon .normal (BitVec.ofNat 16 (trip - 2)) v lowStop lowRet highRet highStop trip =
      (.normal, BitVec.ofNat 16 (trip - 1)) := by
    rw [mon_of_crosses_of_lt (monCrosses_normal.2 hv) hmax (by omega), htwo, show trip - 2 + 1 = trip - 1 by omega]
  have htrip : mon .normal (BitVec.ofNat 16 (trip - 1)) v' lowStop lowRet highRet highStop trip =
      (if v' < lowStop then .low else .high, 0) := mon_of_crosses_of_eq (monCrosses_normal.2 hv') hmax (by omega)
  simp only [monAll_cons, monAll_nil, hdown, hup, htrip, and_self]

/-- Settles O31: inside the band no reading crosses, so each one counts down. -/
theorem hysteresisBandHolds : Obligations.HysteresisBandHolds := by
  refine fun lowStop lowRet highRet highStop trip readings cnt => ⟨fun h => ?_, fun h => ?_, fun h => ?_⟩
  · refine monAll_of_not_crosses fun v hv => ?_
    obtain ⟨hlo, hhi⟩ := h v hv
    rw [monCrosses_normal]; omega
  · exact monAll_of_not_crosses fun v hv => by rw [monCrosses_low]; exact Nat.not_lt.2 (h v hv)
  · exact monAll_of_not_crosses fun v hv => by rw [monCrosses_high]; exact Nat.not_lt.2 (h v hv)

/-- Settles O32: the two raises by a latch, `MON` otherwise, and the bits 0 and 1 of the port `rearm`. -/
theorem supplyMonitor : Obligations.SupplyMonitor := by
  intro s
  obtain ⟨t, ht, -⟩ := exec_next .evAtick s
  obtain ⟨hpm, -⟩ := evAtick_next ht
  obtain ⟨hov, huv, -⟩ := evAtick_rearm_iff ht
  refine ⟨t, ht, ?_, ?_, ?_, hov, huv⟩ <;> rw [hpm, pmTick_vsCond, pmTick_vsCnt, avg_eq_average]
  exacts [pmSupply_of_ov, pmSupply_of_uv, pmSupply_eq_mon]

/-- Settles O33: an average never exceeds 65535, so the result is the image of Normal or Off. -/
theorem ignitionMonitor : Obligations.IgnitionMonitor := by
  intro s
  obtain ⟨t, ht, -⟩ := exec_next .evAtick s
  obtain ⟨hpm, -⟩ := evAtick_next ht
  refine ⟨t, ht, ?_⟩
  rw [hpm, pmTick_ignCond, pmTick_ignCnt, ← avg_eq_average]
  exact pmIgnition_eq_mon (avg_le s.mem .ign)

/-- Settles O34: the raise by the latch, `MON` otherwise, and bit 2 of the port `rearm`. -/
theorem temperatureMonitor : Obligations.TemperatureMonitor := by
  intro s
  obtain ⟨t, ht, -⟩ := exec_next .evAtick s
  obtain ⟨hpm, -⟩ := evAtick_next ht
  obtain ⟨-, -, hot, -⟩ := evAtick_rearm_iff ht
  refine ⟨t, ht, ?_, ?_, hot⟩ <;> rw [hpm, pmTick_tCond, pmTick_tCnt, avg_eq_average]
  exacts [pmTemperature_of_ot, pmTemperature_eq_mon]

/-- Settles O35: the debounced count toward Fault from Ok, and toward Ok from Fault. -/
theorem mcuHealthMonitor : Obligations.McuHealthMonitor := by
  intro s
  obtain ⟨t, ht, -⟩ := exec_next .evAtick s
  obtain ⟨hpm, -⟩ := evAtick_next ht
  refine ⟨t, ht, ?_⟩
  rw [hpm, pmTick_mcuCond, pmTick_mcuCnt, avg_eq_average]
  exact ⟨pmMcuHealth_of_ok, pmMcuHealth_of_fault⟩

/-- Settles O36: the raise from the latch, the debounced return, and bit 3 of the port `rearm`. -/
theorem hardwareOverCurrentMonitor : Obligations.HardwareOverCurrentMonitor := by
  intro s
  obtain ⟨t, ht, -⟩ := exec_next .evAtick s
  obtain ⟨hpm, -⟩ := evAtick_next ht
  obtain ⟨-, -, -, hoc, -⟩ := evAtick_rearm_iff ht
  have hregs : (t.pm.ocCond, t.pm.ocCnt) =
      ((pmHwOc s.cfg (Claims.filteredCurrent s.mem) s.hwpend s.pm).1.ocCond,
        (pmHwOc s.cfg (Claims.filteredCurrent s.mem) s.hwpend s.pm).1.ocCnt) := by
    rw [hpm, pmTick_ocCond, pmTick_ocCnt, iavg_eq_filteredCurrent]
  refine ⟨t, ht, fun hn => ⟨hregs.trans (pmHwOc_of_normal hn), ?_⟩, fun ho => ⟨hregs.trans (pmHwOc_of_over ho), ?_⟩⟩
  · simp only [← Bool.not_eq_true, hoc, hn, reduceCtorEq, false_and, not_false_eq_true]
  · simp only [hoc, ho, true_and]

/-- Settles O37: the raise from the latch, the debounced return, and bit 4 of the port `rearm`. -/
theorem hardwareVdsMonitor : Obligations.HardwareVdsMonitor := by
  intro s
  obtain ⟨t, ht, -⟩ := exec_next .evAtick s
  obtain ⟨hpm, -⟩ := evAtick_next ht
  obtain ⟨-, -, -, -, hvds⟩ := evAtick_rearm_iff ht
  have hregs : (t.pm.vdsCond, t.pm.vdsCnt) =
      ((pmHwVds s.cfg s.mc.outEn s.hwpend s.pm).1.vdsCond, (pmHwVds s.cfg s.mc.outEn s.hwpend s.pm).1.vdsCnt) := by
    rw [hpm, pmTick_vdsCond, pmTick_vdsCnt]
  refine ⟨t, ht, fun hn => ⟨hregs.trans (pmHwVds_of_normal hn), ?_⟩, fun hs => ⟨hregs.trans (pmHwVds_of_short hs), ?_⟩⟩
  · simp only [← Bool.not_eq_true, hvds, hn, reduceCtorEq, false_and, not_false_eq_true]
  · simp only [hvds, hs, true_and]

/-- Settles O38: the re-arm write clears the bits of the port, each of which stands for a return to Normal. -/
theorem rearmOnlyOnReturn : Obligations.RearmOnlyOnReturn := by
  intro s t h
  obtain ⟨-, -, hlatch⟩ := evAtick_next h
  obtain ⟨hov, huv, hot, hoc, hvds⟩ := evAtick_rearm_iff h
  refine ⟨fun b hb => ?_, fun b hb hport => ?_, fun hp => (hov.1 hp).imp_right And.left,
    fun hp => (huv.1 hp).imp_right And.left, fun hp => (hot.1 hp).imp_right And.left,
    fun hp => (hoc.1 hp).imp_right And.left, fun hp => (hvds.1 hp).imp_right And.left⟩
  · simp [hlatch, hb]
  · obtain rfl | rfl | rfl | rfl | rfl : b = 0 ∨ b = 1 ∨ b = 2 ∨ b = 3 ∨ b = 4 := by omega
    exacts [(hov.1 hport).2.2, (huv.1 hport).2.2, (hot.1 hport).2.2, (hoc.1 hport).2.2, (hvds.1 hport).2.2]

/-- Settles O25: the code of each condition is its number, and an answer changes no register. -/
theorem conditionGettersAnswer : Obligations.ConditionGettersAnswer := by
  refine ⟨⟨decodesN_of_rowOf rfl, decodesN_of_rowOf rfl, decodesN_of_rowOf rfl, decodesN_of_rowOf rfl,
    decodesN_of_rowOf rfl⟩, fun s => ⟨?_, ?_, ?_, ?_, ?_, rfl⟩⟩
  · exact congrArg _ (respond_eq_answered (by cases s.pm.vsCond <;> rfl) s)
  · exact congrArg _ (respond_eq_answered (by cases s.pm.ignCond <;> rfl) s)
  · exact congrArg _ (respond_eq_answered (by cases s.pm.tCond <;> rfl) s)
  · exact congrArg _ (respond_eq_answered (by cases s.pm.mcuCond <;> rfl) s)
  · exact congrArg _ (respond_eq_answered (by cases s.pm.ocCond <;> cases s.pm.vdsCond <;> rfl) s)

/-- Settles O26: the model's average over a window is the average of the eight slots. -/
theorem readingGettersAnswer : Obligations.ReadingGettersAnswer := by
  refine ⟨⟨decodesN_of_rowOf rfl, decodesN_of_rowOf rfl, decodesN_of_rowOf rfl, decodesN_of_rowOf rfl⟩, fun s => ?_⟩
  simp only [← iavg_eq_filteredCurrent, ← avg_eq_average]
  exact ⟨rfl, rfl, rfl, rfl⟩

/-- Settles O27: the event's mask is joined to the latches bit by bit. -/
theorem hwprotSetsLatchBits : Obligations.HwprotSetsLatchBits :=
  ⟨fun _ => decode_event (e := .hwprot) (by decide) rfl,
    fun s m => ⟨_, exec_evHwprot m s, fun _ _ => BitVec.getLsbD_or, rfl⟩⟩

end Sys2Proof.Machine
end

section
/-! The motor tick (42_motor_tick.md): the voltage table (R190, R191), the observer and the detectors (R183, R193 to R198),
the state machine (R200 to R209, R212), what an entry writes (R186), the soft stop (R205, R206), the timers (R187, R188);
and the duty ramp of the application tick (R210). -/

namespace Sys2Proof.Machine

/-! ### The voltage-indexed table (R191) -/

/-- Once the best row is at or below the reading, the search keeps the largest `vmin` that is. -/
theorem vlookupFrom_largest (rows : List VRow) (best : VRow) {v : Nat} (hbest : best.vmin ≤ v) :
    vlookupFrom best rows v ∈ best :: rows ∧ (vlookupFrom best rows v).vmin ≤ v ∧
    ∀ q ∈ best :: rows, q.vmin ≤ v → q.vmin ≤ (vlookupFrom best rows v).vmin := by
  induction rows generalizing best with
  | nil => simp [vlookupFrom, hbest]
  | cons r rows ih =>
    rw [vlookupFrom]
    split
    next hr =>
      obtain ⟨hmem, hle, hmax⟩ := ih r hr.1
      refine ⟨List.mem_cons_of_mem _ hmem, hle, List.forall_mem_cons.2 ⟨fun _ => ?_, hmax⟩⟩
      exact hr.2.trans (hmax r List.mem_cons_self hr.1)
    next hr =>
      obtain ⟨hmem, hle, hmax⟩ := ih best hbest
      obtain ⟨hfirst, hrest⟩ := List.forall_mem_cons.1 hmax
      refine ⟨?_, hle, List.forall_mem_cons.2 ⟨hfirst, List.forall_mem_cons.2 ⟨fun hv => ?_, hrest⟩⟩⟩
      · exact (List.mem_cons.1 hmem).elim (fun e => by simp [e]) fun h => by simp [h]
      · have := hfirst hbest
        omega

theorem vlookupFrom_of_below {rows : List VRow} {best : VRow} {v : Nat} (h : ∀ q ∈ rows, v < q.vmin) :
    vlookupFrom best rows v = best := by
  induction rows with
  | nil => rfl
  | cons r rows ih =>
    obtain ⟨hr, hrows⟩ := List.forall_mem_cons.1 h
    rw [vlookupFrom, if_neg (fun hcond => Nat.not_le.2 hr hcond.1), ih hrows]

theorem vlookup_refCfg (v : Nat) :
    vlookup refCfg.VTAB v =
      if v ≤ 999 then ⟨800, 300, 600, 300⟩ else if v ≤ 1199 then ⟨1000, 400, 800, 250⟩
      else if v ≤ 1399 then ⟨1200, 500, 1000, 200⟩ else ⟨1400, 600, 1200, 150⟩ := by
  simp only [refCfg, vlookup, vlookupFrom]
  grind

/-! ### A detector in numbers (R15, R35) -/

/-- A detector that is enabled exactly under `active` and then looks at `cond`: its counter and its flag after a tick. -/
theorem detector_spec {active cond : Prop} [Decidable cond] {enabled c flag flag' : Bool} {trip : Nat} {cnt cnt' : Word}
    (henabled : enabled = true ↔ active) (hcond : active → (c = true ↔ cond))
    (hcnt : cnt' = (detect enabled c trip cnt).1) (hflag : flag' = (flag || (detect enabled c trip cnt).2)) :
    (¬ active → cnt' = 0 ∧ flag' = flag) ∧
    (active → cnt'.toNat = Claims.counted cnt.toNat cond ∧
      (flag' = true ↔ flag = true ∨ (cond ∧ trip ≤ cnt'.toNat))) := by
  rw [hcnt, hflag]
  refine ⟨fun hoff => ?_, fun hon => ?_⟩
  · rw [← henabled, Bool.not_eq_true] at hoff
    simp [hoff]
  · rw [henabled.2 hon, detect_enabled]
    simp only [Bool.or_eq_true, Bool.and_eq_true, decide_eq_true_eq, updown_toNat, hcond hon, Claims.counted, and_self]

/-- The two stall flags are set independently of each other (R36). -/
theorem getLsbD_stallFlags (flags : BitVec 2) (low stop : Bool) :
    (setIf (setIf flags stallTemporary low) stallPermanent stop).getLsbD 0 = (flags.getLsbD 0 || low) ∧
    (setIf (setIf flags stallTemporary low) stallPermanent stop).getLsbD 1 = (flags.getLsbD 1 || stop) := by
  simp only [getLsbD_setIf]
  simp [stallTemporary, stallPermanent]

/-- So are the three fault flags (R37). -/
theorem getLsbD_faultFlags (flags : BitVec 3) (dry shorted high : Bool) :
    let flags' := setIf (setIf (setIf flags faultOpenPhase dry) faultShort shorted) faultOverCurrent high
    flags'.getLsbD 0 = (flags.getLsbD 0 || dry) ∧ flags'.getLsbD 1 = (flags.getLsbD 1 || shorted) ∧
    flags'.getLsbD 2 = (flags.getLsbD 2 || high) := by
  simp only [getLsbD_setIf]
  simp [faultOpenPhase, faultShort, faultOverCurrent]

/-! ### What an entry writes (R186) -/

section Enter
variable (cfg : Cfg) (d : Int) (target : MotorState) (mc : MC)

theorem enter_outEn :
    (mc.enter cfg d target).outEn =
      match target with
      | .accelerating => true
      | .init | .running | .decelerating => mc.outEn
      | .stopped | .paused | .stalled | .fault => false := by
  cases target <;> rfl

theorem enter_duty :
    (mc.enter cfg d target).duty =
      match target with
      | .stopped => 0
      | .accelerating => BitVec.ofNat 16 cfg.START_DUTY
      | .running => BitVec.ofNat 16 cfg.DUTY_FULL
      | .init | .decelerating | .paused | .stalled | .fault => mc.duty := by
  cases target <;> rfl

theorem enter_dir_of_ne {target : MotorState} (h : target ≠ .accelerating) : (mc.enter cfg d target).dir = mc.dir := by
  cases target with
  | accelerating => exact absurd rfl h
  | _ => rfl

theorem enter_dutySaved_decelerating : (mc.enter cfg d .decelerating).dutySaved = mc.duty := rfl

theorem enter_dutySaved_of_ne {target : MotorState} (h : target ≠ .decelerating) :
    (mc.enter cfg d target).dutySaved = mc.dutySaved := by
  cases target with
  | decelerating => exact absurd rfl h
  | _ => rfl

end Enter

/-! ### The exits of each state (R202 to R209) -/

section Exits
variable (cfg : Cfg) (d : Int) (dist : Nat) (mc : MC)

theorem smStopped_mstate :
    (mc.smStopped cfg d).1.mstate = if mc.moveReq = true ∧ mc.hardStop = false then .accelerating else mc.mstate := by
  rw [MC.smStopped]
  split <;> simp [goTo_eq]

theorem smAccelerating_mstate :
    (mc.smAccelerating cfg d dist).1.mstate =
      if mc.hardStop = true then .stopped
      else if cfg.SOFTSTOP_ENTRY ≤ mc.duty.toNat ∧ dist ≤ cfg.DECEL_WINDOW then .decelerating
      else if cfg.DUTY_FULL ≤ mc.duty.toNat then .running
      else mc.mstate := by
  rw [MC.smAccelerating]
  split_ifs <;> simp [goTo_eq]

theorem smRunning_mstate :
    (mc.smRunning cfg d dist).1.mstate =
      if mc.hardStop = true ∨ mc.posReached = true then .stopped
      else if mc.reversal d = true then .paused
      else if dist ≤ cfg.DECEL_WINDOW then .decelerating
      else mc.mstate := by
  rw [MC.smRunning]
  split_ifs <;> simp [goTo_eq]

theorem smDecelerating_mstate :
    (mc.smDecelerating cfg d dist).1.mstate =
      if mc.hardStop = true then .stopped
      else if mc.restore = true then if cfg.RESTORE_TICKS ≤ mc.restoreCnt.toNat + 1 then .stopped else mc.mstate
      else if mc.motionStopped cfg = true then mc.mstate
      else if mc.reversal d = true then .paused
      else mc.mstate := by
  rw [MC.smDecelerating]
  split_ifs <;> simp [goTo_eq]

theorem smPaused_mstate :
    (mc.smPaused cfg d).1.mstate = if cfg.PAUSE_TICKS ≤ mc.elapsed.toNat + 1 then .stopped else mc.mstate := by
  rw [MC.smPaused]
  split <;> simp [goTo_eq]

theorem smStalled_mstate : (mc.smStalled cfg d).1.mstate = if mc.stallFlags = 0 then .stopped else mc.mstate := by
  rw [MC.smStalled]
  split <;> simp [goTo_eq]

theorem smFault_mstate : (mc.smFault cfg d).1.mstate = if mc.faultFlags = 0 then .stopped else mc.mstate := by
  rw [MC.smFault]
  split <;> simp [goTo_eq]

/-- The three ways to stay in Decelerating (R205, R206). -/
theorem smDecelerating_stays {m' : MC} (h : mc.smDecelerating cfg d dist = (m', none)) :
    (mc.restore = true → m'.restore = true ∧ m'.restoreCnt = mc.restoreCnt + 1 ∧ m'.duty = mc.duty) ∧
    (mc.restore = false → mc.motionDelta.toNat ≤ cfg.MOTION_STOP_MAX →
      m'.restore = true ∧ m'.restoreCnt = 0 ∧ m'.duty = mc.dutySaved) ∧
    (mc.restore = false → cfg.MOTION_STOP_MAX < mc.motionDelta.toNat →
      m'.restore = false ∧ m'.restoreCnt = mc.restoreCnt ∧ m'.duty = toWord (softStopDuty cfg dist mc)) := by
  have hcount : toWord (mc.restoreCnt.toNat + 1) = mc.restoreCnt + 1 := BitVec.eq_of_toNat_eq (by simp [toWord])
  rw [MC.smDecelerating] at h
  split_ifs at h with hstop hrestore hlast hmotion hrev
  · simp [goTo_eq] at h
  · simp [goTo_eq] at h
  · cases h; simp [hrestore, hcount]
  · cases h; simpa [hrestore, MC.motionStopped] using hmotion
  · simp [goTo_eq] at h
  · cases h; simpa [hrestore, MC.motionStopped] using hmotion

/-- With a fault pending the machine is in Fault after the evaluation, from whatever state (R201, R209). -/
theorem sm_mstate_of_fault (h : mc.faultFlags ≠ 0) : (mc.sm cfg d dist).1.mstate = .fault := by
  by_cases hm : mc.mstate = .fault
  · rw [sm_in_fault _ _ _ _ hm, smFault_mstate, if_neg h, hm]
  · rw [sm_fault _ _ _ _ h hm, goTo_eq, enter_mstate]

/-- With a stall flag and no fault it is in Stalled, from every state but Fault (R201, R208). -/
theorem sm_mstate_of_stall (h : mc.faultFlags = 0) (hs : mc.stallFlags ≠ 0) (hf : mc.mstate ≠ .fault) :
    (mc.sm cfg d dist).1.mstate = .stalled := by
  by_cases hm : mc.mstate = .stalled
  · rw [sm_in_stalled _ _ _ _ hm h, smStalled_mstate, if_neg hs, hm]
  · rw [sm_stalled _ _ _ _ h hs hm hf, goTo_eq, enter_mstate]

/-- A move of the state machine is a row of the table of R212. -/
theorem mem_transitionPairs_of_legalMove {a b : MotorState} (ha : a ≠ .init) (h : legalMove a b = true) :
    (a, b) ∈ Claims.transitionPairs := by
  revert ha h
  cases a <;> cases b <;> decide

end Exits

/-- The soft-stop duty fits its register: it is at most the duty or the floor (R205). -/
theorem toNat_softStopDuty (cfg : Cfg) (dist : Nat) (mc : MC) :
    (toWord (softStopDuty cfg dist mc)).toNat =
      max mc.minDuty.toNat (min mc.duty.toNat (cfg.DUTY_FULL * dist / cfg.DECEL_WINDOW)) := by
  have hfloor := mc.minDuty.isLt
  have hduty := mc.duty.isLt
  rw [softStopDuty, toWord_toNat]
  omega

theorem reversal_iff (mc : MC) (d : Int) :
    mc.reversal d = true ↔ (0 < d ∧ mc.dir = .rev) ∨ (d < 0 ∧ mc.dir = .fwd) := by
  simp only [MC.reversal, Bool.or_eq_true, Bool.and_eq_true, decide_eq_true_eq]

/-! ### The motor tick on a state -/

theorem iinst_eq_instantCurrent (m : Memory) (w : BitVec 3) : iinst m w = Claims.instantCurrent m w := rfl

/-- What the state machine is evaluated on (R200): sub-steps 1 to 5 of R180 on the readings of the state. -/
abbrev State.measured (s : State) : MC :=
  s.mc.measure s.cfg (Claims.average s.mem .vs) (Claims.filteredCurrent s.mem) (Claims.instantCurrent s.mem s.sf.widx)
    s.hwpend

section Tick
variable {s t : State}

theorem evMtick_next (h : exec .evMtick s = .next t) :
    t.mc = s.mc.tick s.cfg (Claims.average s.mem .vs) (Claims.filteredCurrent s.mem)
      (Claims.instantCurrent s.mem s.sf.widx) s.hwpend ∧ t = { s with mc := t.mc, out := .none } := by
  cases h
  refine ⟨?_, rfl⟩
  rw [← avg_eq_average, ← iavg_eq_filteredCurrent, ← iinst_eq_instantCurrent]

/-- R181: the tick that leaves `Init`. -/
theorem evMtick_of_init (h : exec .evMtick s = .next t) (hm : s.mc.mstate = .init) :
    t.mc = { s.mc with mstate := .stopped, initStatus := true, elapsed := 0, restore := false, restoreCnt := 0,
                       outEn := false, duty := 0 } := by
  rw [(evMtick_next h).1, tick_init _ _ _ _ _ _ hm]; rfl

/-- A tick outside `Init` takes one legal transition on what was measured, or none; the timers follow (R187, R188). -/
theorem evMtick_cases (h : exec .evMtick s = .next t) (hm : s.mc.mstate ≠ .init) :
    (∃ target, legalMove s.mc.mstate target = true ∧
      t.mc = { s.measured.enter s.cfg (Claims.travel s) target with
               enTimer := if target = .accelerating then 0
                          else if (s.measured.enter s.cfg (Claims.travel s) target).outEn = true then satInc s.mc.enTimer
                          else 0 }) ∨
    (∃ m' : MC, s.measured.sm s.cfg (Claims.travel s) (Claims.distance s) = (m', none) ∧
      t.mc = { s.measured with
               duty := m'.duty, restore := m'.restore, restoreCnt := m'.restoreCnt, elapsed := satInc s.mc.elapsed,
               enTimer := if s.measured.outEn = true then satInc s.mc.enTimer else 0 }) := by
  rw [(evMtick_next h).1]
  obtain ⟨target, hmove, _, e⟩ | ⟨m', hsm, frame, _, e⟩ := tick_cases s.cfg (Claims.average s.mem .vs)
    (Claims.filteredCurrent s.mem) (Claims.instantCurrent s.mem s.sf.widx) s.hwpend s.mc hm
  · exact .inl ⟨target, hmove, e⟩
  · exact .inr ⟨m', hsm, e.trans (by rw [frame])⟩

theorem evMtick_flags (h : exec .evMtick s = .next t) (hm : s.mc.mstate ≠ .init) :
    t.mc.stallFlags = s.measured.stallFlags ∧ t.mc.faultFlags = s.measured.faultFlags := by
  rw [(evMtick_next h).1]
  exact ⟨tick_stallFlags _ _ _ _ _ _ hm, tick_faultFlags _ _ _ _ _ _ hm⟩

theorem evMtick_motionDelta (h : exec .evMtick s = .next t) (hm : s.mc.mstate ≠ .init) :
    t.mc.motionDelta = s.measured.motionDelta := by
  rw [(evMtick_next h).1]
  exact tick_motionDelta _ _ _ _ _ _ hm

theorem evMtick_mstate (h : exec .evMtick s = .next t) (hm : s.mc.mstate ≠ .init) :
    t.mc.mstate = (s.measured.sm s.cfg (Claims.travel s) (Claims.distance s)).1.mstate := by
  rw [(evMtick_next h).1, MC.tick, if_neg hm, countEnabled_mstate, countElapsed_mstate]
  rfl

variable (s)

theorem measured_outEn_iff : s.measured.outEn = true ↔ Claims.drivenAfterTest s := by
  rw [measure_outEn, Bool.and_eq_true, decide_eq_true_eq]
  exact Iff.rfl

theorem measured_moveReq_iff : s.measured.moveReq = true ↔ s.mc.moveReq = true ∧ s.cfg.OFF_HYST < Claims.distance s := by
  rw [measure_moveReq, Bool.and_eq_true, decide_eq_true_eq]
  exact Iff.rfl

theorem measured_posReached_iff :
    s.measured.posReached = true ↔ s.mc.posReached = true ∨ Claims.distance s ≤ s.cfg.OFF_HYST := by
  rw [measure_posReached, Bool.or_eq_true, decide_eq_true_eq]
  exact Iff.rfl

theorem measured_reversal_iff : s.measured.reversal (Claims.travel s) = true ↔ Claims.reversing s := by
  rw [measure_reversal, reversal_iff]
  exact Iff.rfl

variable {s}

/-! ### The transition of a tick (R200 to R209, R212) -/

/-- Fault before Stalled before the state's own exits (R201). -/
theorem evMtick_mstate_priority (h : exec .evMtick s = .next t) (hm : s.mc.mstate ≠ .init) (hf : s.mc.mstate ≠ .fault)
    {own : MC × Option MotorState}
    (hown : s.measured.faultFlags = 0 → s.measured.stallFlags = 0 →
      s.measured.sm s.cfg (Claims.travel s) (Claims.distance s) = own) :
    (t.mc.faultFlags ≠ 0 → t.mc.mstate = .fault) ∧
    (t.mc.faultFlags = 0 → t.mc.stallFlags ≠ 0 → t.mc.mstate = .stalled) ∧
    (t.mc.faultFlags = 0 → t.mc.stallFlags = 0 → t.mc.mstate = own.1.mstate) := by
  obtain ⟨hstall, hfault⟩ := evMtick_flags h hm
  rw [evMtick_mstate h hm, hstall, hfault]
  exact ⟨sm_mstate_of_fault _ _ _ _, fun hff hsf => sm_mstate_of_stall _ _ _ _ hff hsf (by rwa [measure_mstate]),
    fun hff hsf => by rw [hown hff hsf]⟩

theorem evMtick_mstate_eq_ite (h : exec .evMtick s = .next t) (hm : s.mc.mstate ≠ .init) (hf : s.mc.mstate ≠ .fault)
    {own : MC × Option MotorState}
    (hown : s.measured.faultFlags = 0 → s.measured.stallFlags = 0 →
      s.measured.sm s.cfg (Claims.travel s) (Claims.distance s) = own) :
    t.mc.mstate =
      if t.mc.faultFlags ≠ 0 then .fault else if t.mc.stallFlags ≠ 0 then .stalled else own.1.mstate := by
  obtain ⟨hfault, hstall, hexit⟩ := evMtick_mstate_priority h hm hf hown
  split_ifs with hff hsf
  · exact hfault hff
  · exact hstall (not_not.1 hff) hsf
  · exact hexit (not_not.1 hff) (not_not.1 hsf)

theorem evMtick_nextMotorState (h : exec .evMtick s = .next t) : Claims.NextMotorState s t t.mc.mstate := by
  cases hs : s.mc.mstate with
  | init => simp only [Claims.NextMotorState, hs, evMtick_of_init h hs]
  | stopped =>
    have e := evMtick_mstate_eq_ite h (by simp [hs]) (by simp [hs]) fun hf hst => by
      rw [sm_own _ _ _ _ hf hst, measure_mstate, hs]
    simp only [smStopped_mstate, measured_moveReq_iff, measure_hardStop, measure_mstate, hs] at e
    simpa only [Claims.NextMotorState, hs, and_assoc] using e
  | accelerating =>
    have e := evMtick_mstate_eq_ite h (by simp [hs]) (by simp [hs]) fun hf hst => by
      rw [sm_own _ _ _ _ hf hst, measure_mstate, hs]
    simp only [smAccelerating_mstate, measure_hardStop, measure_duty, measure_mstate, hs] at e
    simpa only [Claims.NextMotorState, hs] using e
  | running =>
    obtain ⟨hfault, hstall, hexit⟩ := evMtick_mstate_priority h (by simp [hs]) (by simp [hs]) fun hf hst => by
      rw [sm_own _ _ _ _ hf hst, measure_mstate, hs]
    simp only [smRunning_mstate, measured_posReached_iff, measure_hardStop, measure_mstate, hs] at hexit
    simp only [Claims.NextMotorState, hs, ← measured_reversal_iff]
    refine ⟨hfault, hstall, fun hf hst => ⟨fun hstop => by rw [hexit hf hst, if_pos hstop], fun hstop hpos hfar => ?_⟩⟩
    rw [hexit hf hst, if_neg (by simp [hstop, hpos, hfar])]
    exact ⟨fun hrev => if_pos hrev, fun hrev => if_neg hrev⟩
  | decelerating =>
    obtain ⟨hfault, hstall, hexit⟩ := evMtick_mstate_priority h (by simp [hs]) (by simp [hs]) fun hf hst => by
      rw [sm_own _ _ _ _ hf hst, measure_mstate, hs]
    simp only [smDecelerating_mstate, MC.motionStopped, ← evMtick_motionDelta h (by simp [hs]), decide_eq_true_eq,
      measure_hardStop, measure_restore, measure_restoreCnt, measure_mstate, hs] at hexit
    simp only [Claims.NextMotorState, hs, ← measured_reversal_iff]
    refine ⟨hfault, hstall, fun hf hst => ?_⟩
    rw [hexit hf hst]
    refine ⟨fun hstop => ?_, fun hstop hrestore => ?_, fun hstop hrestore hstill => ?_, fun hstop hrestore hmoved => ?_⟩
    · simp [hstop]
    · simp [hstop, hrestore]
    · simp [hstop, hrestore, hstill]
    · simp [hstop, hrestore, Nat.not_le.2 hmoved]
  | paused =>
    have e := evMtick_mstate_eq_ite h (by simp [hs]) (by simp [hs]) fun hf hst => by
      rw [sm_own _ _ _ _ hf hst, measure_mstate, hs]
    simp only [smPaused_mstate, measure_elapsed, measure_mstate, hs] at e
    simpa only [Claims.NextMotorState, hs] using e
  | stalled =>
    have e := evMtick_mstate_eq_ite h (by simp [hs]) (by simp [hs]) fun hf _ =>
      sm_in_stalled _ _ _ _ (by rw [measure_mstate, hs]) hf
    simp only [smStalled_mstate, ← (evMtick_flags h (by simp [hs])).1] at e
    simp only [Claims.NextMotorState, hs, e]
    split_ifs <;> trivial
  | fault =>
    have hm : s.mc.mstate ≠ .init := by simp [hs]
    have e := evMtick_mstate h hm
    rw [sm_in_fault _ _ _ _ (by rw [measure_mstate, hs]), smFault_mstate, measure_mstate, hs,
      ← (evMtick_flags h hm).2] at e
    simp only [Claims.NextMotorState, hs, e, ite_not]

/-- A tick outside `Init` keeps the state or makes a move of R212. -/
theorem evMtick_mem_transitionPairs (h : exec .evMtick s = .next t) :
    t.mc.mstate = s.mc.mstate ∨ (s.mc.mstate, t.mc.mstate) ∈ Claims.transitionPairs := by
  by_cases hm : s.mc.mstate = .init
  · simp [evMtick_of_init h hm, hm, Claims.transitionPairs]
  · obtain ⟨target, hmove, e⟩ | ⟨m', _, e⟩ := evMtick_cases h hm
    · refine .inr ?_
      rw [e, enter_mstate]
      exact mem_transitionPairs_of_legalMove hm hmove
    · refine .inl ?_
      rw [e, measure_mstate]

/-- Accelerating is entered with the target out of `OFF_HYST` only (R202, R184). -/
theorem distance_of_enters_accelerating (h : exec .evMtick s = .next t) (hne : t.mc.mstate ≠ s.mc.mstate)
    (ht : t.mc.mstate = .accelerating) : s.cfg.OFF_HYST < Claims.distance s := by
  have hstopped : s.mc.mstate = .stopped := by
    have hpair := (evMtick_mem_transitionPairs h).resolve_left hne
    simpa [ht, Claims.transitionPairs] using hpair
  have hnext := evMtick_nextMotorState h
  simp only [Claims.NextMotorState, hstopped, ht] at hnext
  split_ifs at hnext with _ _ hmove
  exact hmove.2.1

theorem evMtick_outEn_of_reached (h : exec .evMtick s = .next t) (hm : s.mc.mstate ≠ .init)
    (hnear : Claims.distance s ≤ s.cfg.OFF_HYST) : t.mc.outEn = false := by
  have hoff : s.measured.outEn = false := by
    rw [← Bool.not_eq_true, measured_outEn_iff]
    exact fun hdriven => Nat.not_lt.2 hnear hdriven.2
  obtain ⟨target, hmove, e⟩ | ⟨m', _, e⟩ := evMtick_cases h hm
  · have hacc : target ≠ .accelerating := by
      rintro rfl
      refine Nat.not_lt.2 hnear (distance_of_enters_accelerating h (fun hstay => ?_) (by simp [e]))
      rw [← hstay, e] at hmove
      simp [legalMove] at hmove
    rw [e, enter_outEn]
    cases target with
    | accelerating => exact absurd rfl hacc
    | init | running | decelerating => exact hoff
    | stopped | paused | stalled | fault => rfl
  · rw [e]
    exact hoff

/-! ### The detectors of a tick (R193 to R198) -/

/-- With the output driven the thresholds of the tick are the latched ones (R190). -/
theorem measured_thresholds_driven (h : s.mc.outEn = true) :
    s.measured.thrHalf = s.mc.thrHalf ∧ s.measured.thrFull = s.mc.thrFull := by
  obtain ⟨hhalf, hfull, -⟩ := measure_thresholds s.cfg (Claims.average s.mem .vs) (Claims.filteredCurrent s.mem)
    (Claims.instantCurrent s.mem s.sf.widx) s.hwpend s.mc
  rw [hhalf, hfull, lookup_driven _ _ _ h]
  exact ⟨rfl, rfl⟩

end Tick

/-! ### Commands and the other events -/

theorem commandStep_mstate {s t : State} (h : CommandStep s t) : t.mc.mstate = s.mc.mstate := by
  cases h <;> rfl

/-- But for reset, the motor state changes on a motor tick only (R186, R200). -/
theorem evMtick_of_mstate_ne {i : Instr} {s t : State} (hi : i ≠ .evRst) (h : exec i s = .next t)
    (hne : t.mc.mstate ≠ s.mc.mstate) : i = .evMtick := by
  cases i with
  | evMtick => rfl
  | evRst => exact absurd rfl hi
  | evHwprot m => cases h; exact absurd rfl hne
  | evAdc raw => cases h; exact absurd rfl hne
  | evAtick => cases h; exact absurd (ramp_mstate _ _) hne
  | _ => exact absurd (commandStep_mstate (exec_command rfl h)) hne

/-! ### The obligations -/

/-- Settles O40: no transition leads to `Init`, nothing else but reset writes the state, and the first tick is the entry to
Stopped with `MC.initStatus`. -/
theorem firstTickLeavesInit : Obligations.FirstTickLeavesInit := by
  refine ⟨fun i s t hi h hm ht => ?_, fun s hm => ?_⟩
  · obtain rfl := evMtick_of_mstate_ne hi h (fun hstay => hm (hstay ▸ ht))
    rw [(evMtick_next h).1] at ht
    exact tick_mstate_ne_init ht
  · obtain ⟨t, ht, -⟩ := exec_next .evMtick s
    rw [ht, (evMtick_next ht).2, evMtick_of_init ht hm]

/-- Settles O41: the four registers of the command context, the status of the first tick, and flags that are only set. -/
theorem motorTickFrame : Obligations.MotorTickFrame := by
  intro s
  obtain ⟨t, ht, -⟩ := exec_next .evMtick s
  obtain ⟨hmc, hframe⟩ := evMtick_next ht
  refine ⟨t, ht, ?_, ?_, ?_, ?_⟩
  · rw [hmc, ← tick_frame, ← hmc]; exact hframe
  · by_cases hm : s.mc.mstate = .init
    · simp [evMtick_of_init ht hm, hm]
    · rw [hmc, tick_initStatus hm, decide_eq_false hm, Bool.or_false]
  · rw [hmc]; exact tick_stallFlags_keeps _ _ _ _ _ _
  · rw [hmc]; exact tick_faultFlags_keeps _ _ _ _ _ _

/-- Settles O42: no later sub-step writes the observer's registers. -/
theorem motionObserver : Obligations.MotionObserver := by
  intro s hm
  obtain ⟨t, ht, -⟩ := exec_next .evMtick s
  refine ⟨t, ht, ?_⟩
  rw [(evMtick_next ht).1, tick_winCnt _ _ _ _ _ _ hm, tick_refAngle _ _ _ _ _ _ hm, tick_motionDelta _ _ _ _ _ _ hm,
    measure_winCnt, measure_refAngle, measure_motionDelta]
  exact ⟨observe_window_end s.cfg s.mc, observe_inside_window s.cfg s.mc⟩

/-- Settles O43: the lookup runs with the output off only, before the position test. -/
theorem thresholdsLatchedWhileEnabled : Obligations.ThresholdsLatchedWhileEnabled := by
  intro s hm
  obtain ⟨t, ht, -⟩ := exec_next .evMtick s
  obtain ⟨hhalf, hfull, hmin⟩ := measure_thresholds s.cfg (Claims.average s.mem .vs) (Claims.filteredCurrent s.mem)
    (Claims.instantCurrent s.mem s.sf.widx) s.hwpend s.mc
  refine ⟨t, ht, ?_⟩
  rw [(evMtick_next ht).1, tick_thrHalf _ _ _ _ _ _ hm, tick_thrFull _ _ _ _ _ _ hm, tick_minDuty _ _ _ _ _ _ hm,
    hhalf, hfull, hmin]
  exact ⟨lookup_idle _ _ _, fun hdriven => by rw [lookup_driven _ _ _ hdriven]; exact ⟨rfl, rfl, rfl⟩⟩

/-- Settles O44: the search keeps the largest `vmin` at or below the reading; below the first row nothing replaces it. -/
theorem lookupPicksTheRow : Obligations.LookupPicksTheRow := by
  refine fun r rows v hrising => ⟨vlookupFrom_largest rows r, fun hbelow => vlookupFrom_of_below fun q hq => ?_,
    vlookup_refCfg v⟩
  exact hbelow.trans ((List.pairwise_cons.1 hrising).1 q hq)

/-- Settles O45: the position test writes both marks, and no transition raises the output again near the target. -/
theorem positionReachedTest : Obligations.PositionReachedTest := by
  intro s hm
  obtain ⟨t, ht, -⟩ := exec_next .evMtick s
  have hpos : t.mc.posReached = s.measured.posReached := by
    rw [(evMtick_next ht).1]; exact tick_posReached _ _ _ _ _ _ hm
  have hreq : t.mc.moveReq = s.measured.moveReq := by
    rw [(evMtick_next ht).1]; exact tick_moveReq _ _ _ _ _ _ hm
  refine ⟨t, ht, fun hnear => ⟨evMtick_outEn_of_reached ht hm hnear, ?_, ?_⟩, fun hfar => ⟨?_, ?_⟩⟩
  · rw [hpos, measured_posReached_iff]; exact .inr hnear
  · rw [hreq, ← Bool.not_eq_true, measured_moveReq_iff]; exact fun h => Nat.not_lt.2 hnear h.2
  · rw [hpos, Bool.eq_iff_iff, measured_posReached_iff, or_iff_left (Nat.not_le.2 hfar)]
  · rw [hreq, Bool.eq_iff_iff, measured_moveReq_iff, and_iff_left hfar]

/-- Settles O48: the successor of each state, and the pairs that it can join. -/
theorem transitionRelation : Obligations.TransitionRelation := by
  intro s
  obtain ⟨t, ht, -⟩ := exec_next .evMtick s
  exact ⟨t, ht, evMtick_nextMotorState ht, evMtick_mem_transitionPairs ht⟩

/-- Settles O46: both detectors are `detector_spec` under one activity; while they are active the thresholds are the
latched ones. -/
theorem stallDetectors : Obligations.StallDetectors := by
  intro s hm
  obtain ⟨t, ht, -⟩ := exec_next .evMtick s
  obtain ⟨hobstr, hstall, hflags⟩ := measure_stall s.cfg (Claims.average s.mem .vs) (Claims.filteredCurrent s.mem)
    (Claims.instantCurrent s.mem s.sf.widx) s.hwpend s.mc
  rw [← tick_obstrCnt _ _ _ _ _ _ hm, ← (evMtick_next ht).1] at hobstr
  rw [← tick_stallCnt _ _ _ _ _ _ hm, ← (evMtick_next ht).1] at hstall
  rw [← (evMtick_flags ht hm).1] at hflags
  refine ⟨t, ht, ?_⟩
  intro current moved active slow stuck
  have hactive : (s.measured.outEn && decide (s.cfg.STALL_MASK_TICKS ≤ s.mc.enTimer.toNat)) = true ↔ active := by
    rw [Bool.and_eq_true, decide_eq_true_eq, measured_outEn_iff]
  have hslow : active → ((decide (s.measured.thrHalf.toNat ≤ current) && s.measured.motionLow s.cfg) = true ↔ slow) := by
    rintro ⟨⟨hout, -⟩, -⟩
    rw [(measured_thresholds_driven hout).1, MC.motionLow, ← evMtick_motionDelta ht hm]
    simp only [Bool.and_eq_true, decide_eq_true_eq, slow, moved]
  have hstuck :
      active → ((decide (s.measured.thrFull.toNat ≤ current) && s.measured.motionStopped s.cfg) = true ↔ stuck) := by
    rintro ⟨⟨hout, -⟩, -⟩
    rw [(measured_thresholds_driven hout).2, MC.motionStopped, ← evMtick_motionDelta ht hm]
    simp only [Bool.and_eq_true, decide_eq_true_eq, stuck, moved]
  obtain ⟨hbit0, hbit1⟩ := getLsbD_stallFlags s.mc.stallFlags _ _
  rw [← hflags] at hbit0 hbit1
  obtain ⟨hobstrOff, hobstrOn⟩ := detector_spec hactive hslow hobstr hbit0
  obtain ⟨hstallOff, hstallOn⟩ := detector_spec hactive hstuck hstall hbit1
  refine ⟨fun hoff => ⟨(hobstrOff hoff).1, (hstallOff hoff).1, BitVec.eq_of_getLsbD_eq fun b hb => ?_⟩, fun hon => ?_⟩
  · obtain rfl | rfl : b = 0 ∨ b = 1 := by omega
    exacts [(hobstrOff hoff).2, (hstallOff hoff).2]
  · exact ⟨(hobstrOn hon).1, (hstallOn hon).1, (hobstrOn hon).2, (hstallOn hon).2⟩

/-- Settles O47: three detectors, each `detector_spec` with its own enable and condition. -/
theorem faultDetectors : Obligations.FaultDetectors := by
  intro s hm
  obtain ⟨t, ht, -⟩ := exec_next .evMtick s
  obtain ⟨hopen, hshort, hoc, hflags⟩ := measure_fault s.cfg (Claims.average s.mem .vs) (Claims.filteredCurrent s.mem)
    (Claims.instantCurrent s.mem s.sf.widx) s.hwpend s.mc
  rw [← tick_openCnt _ _ _ _ _ _ hm, ← (evMtick_next ht).1] at hopen
  rw [← tick_shortCnt _ _ _ _ _ _ hm, ← (evMtick_next ht).1] at hshort
  rw [← tick_ocCnt _ _ _ _ _ _ hm, ← (evMtick_next ht).1] at hoc
  obtain ⟨hbit0, hbit1, hbit2⟩ := getLsbD_faultFlags s.mc.faultFlags _ _ _
  rw [← (evMtick_flags ht hm).2] at hflags
  rw [← hflags] at hbit0 hbit1 hbit2
  have hdriven (b : Nat) : (s.cfg.FAULT_EN.getLsbD b && s.measured.outEn) = true ↔
      s.cfg.FAULT_EN.getLsbD b = true ∧ Claims.drivenAfterTest s := by
    rw [Bool.and_eq_true, measured_outEn_iff]
  obtain ⟨hopenOff, hopenOn⟩ := detector_spec (hdriven 0) (fun _ => decide_eq_true_iff) hopen hbit0
  obtain ⟨hshortOff, hshortOn⟩ := detector_spec Iff.rfl (fun _ => Iff.rfl) hshort hbit1
  obtain ⟨hocOff, hocOn⟩ := detector_spec (hdriven 2) (fun _ => decide_eq_true_iff) hoc hbit2
  exact ⟨t, ht, hopenOff, hopenOn, hshortOff, hshortOn, hocOff, hocOn⟩

/-- Settles O49: a change of state is a transition of the tick, which writes what `enter` writes. -/
theorem entryActions : Obligations.EntryActions := by
  intro i s t hi h hne
  obtain rfl := evMtick_of_mstate_ne hi h hne
  refine ⟨rfl, ?_⟩
  by_cases hm : s.mc.mstate = .init
  · simp [evMtick_of_init h hm]
  · obtain ⟨target, hmove, e⟩ | ⟨m', _, e⟩ := evMtick_cases h hm
    · rw [e]
      simp only [enter_mstate, enter_elapsed, enter_restore, enter_restoreCnt, enter_outEn, enter_duty, measure_duty,
        true_and]
      refine ⟨?_, ?_, ?_, ?_, ?_, ?_, ?_, ?_⟩
      · rintro rfl; exact ⟨rfl, rfl⟩
      · rintro (rfl | rfl | rfl) <;> exact ⟨rfl, rfl⟩
      · rintro rfl; exact ⟨rfl, rfl, rfl, rfl⟩
      · rintro rfl; rfl
      · rintro (rfl | rfl) <;> exact measured_outEn_iff s
      · rintro rfl; exact ⟨by rw [enter_dutySaved_decelerating, measure_duty], rfl⟩
      · exact fun hacc => (enter_dir_of_ne _ _ _ hacc).trans (measure_dir ..)
      · exact fun hdec => (enter_dutySaved_of_ne _ _ _ hdec).trans (measure_dutySaved ..)
    · rw [e, measure_mstate] at hne
      exact absurd rfl hne

/-- Settles O50: the state machine took no transition, so no flag is set and one of the three ways to stay applies. -/
theorem SoftStop.softStopDuty : Obligations.SoftStopDuty := by
  intro s t h hs ht
  have hm : s.mc.mstate ≠ .init := by simp [hs]
  obtain ⟨target, hmove, e⟩ | ⟨m', hsm, e⟩ := evMtick_cases h hm
  · obtain rfl : target = .decelerating := by simpa [e] using ht
    simp [hs, legalMove] at hmove
  · obtain ⟨hfault, hstall, -⟩ := evMtick_mstate_priority h hm (by simp [hs]) fun _ _ => rfl
    have hff : s.measured.faultFlags = 0 := by
      rw [← (evMtick_flags h hm).2]
      exact not_not.1 fun hf => by simp [hfault hf] at ht
    have hsf : s.measured.stallFlags = 0 := by
      rw [← (evMtick_flags h hm).1]
      exact not_not.1 fun hst => by simp [hstall ((evMtick_flags h hm).2.trans hff) hst] at ht
    rw [sm_own _ _ _ _ hff hsf, measure_mstate, hs] at hsm
    have hways := smDecelerating_stays _ _ _ _ hsm
    rw [measure_restore, measure_restoreCnt, measure_duty, measure_dutySaved, ← evMtick_motionDelta h hm,
      show m'.restore = t.mc.restore by rw [e], show m'.restoreCnt = t.mc.restoreCnt by rw [e],
      show m'.duty = t.mc.duty by rw [e]] at hways
    have hfloor : s.measured.minDuty = t.mc.minDuty := by rw [e]
    obtain ⟨hrestore, hstill, hmoving⟩ := hways
    refine ⟨by rw [e, measure_dutySaved], by rw [e, measure_dir], hrestore, hstill, fun hr hd => ?_⟩
    obtain ⟨hphase, hcount, hduty⟩ := hmoving hr hd
    exact ⟨hphase, hcount, by rw [hduty, toNat_softStopDuty, hfloor, measure_duty]⟩

/-- Settles O52: `enter` starts `MC.elapsed` at 0, and the enable timer with it on entry to Accelerating; `satInc` counts. -/
theorem tickTimers : Obligations.TickTimers := by
  intro s hm
  obtain ⟨t, ht, -⟩ := exec_next .evMtick s
  refine ⟨t, ht, ?_⟩
  obtain ⟨target, hmove, e⟩ | ⟨m', _, e⟩ := evMtick_cases ht hm
  · have hne : target ≠ s.mc.mstate := by
      rintro rfl
      rw [not_legalMove_self] at hmove
      exact Bool.false_ne_true hmove
    rw [e]
    simp only [enter_mstate, enter_elapsed]
    refine ⟨fun _ => trivial, fun h => absurd h hne, fun h => if_pos h.1, fun h => ?_⟩
    rw [if_neg fun hacc => h ⟨hacc, fun h' => hne (hacc.trans h'.symm)⟩]
    split_ifs
    exacts [satInc_toNat _, rfl]
  · have hstay : t.mc.mstate = s.mc.mstate := by rw [e, measure_mstate]
    have hout : t.mc.outEn = s.measured.outEn := by rw [e]
    refine ⟨fun h => absurd hstay h, fun _ => ?_, fun h => absurd (hstay ▸ h.1) h.2, fun _ => ?_⟩
    · rw [e]; exact satInc_toNat _
    · rw [hout, e]
      split_ifs
      exacts [satInc_toNat _, rfl]

/-- Settles O39: the ramp writes the duty only, in Accelerating only. -/
theorem atickRampsAndFrames : Obligations.AtickRampsAndFrames := by
  refine fun s => ⟨_, exec_evAtick s, ?_⟩
  generalize pmTick s.cfg s.mem s.hwpend s.mc.outEn s.pm = r
  refine ⟨congrArg (fun mc => { s with pm := r.1, hwpend := s.hwpend &&& ~~~r.2, mc := mc, out := .rearm r.2 })
    (ramp_eq s.cfg s.mc), ?_⟩
  rw [MC.ramp]
  split_ifs <;> rfl

end Sys2Proof.Machine
end

section
/-! The commands of the Motor Controller (43_motor_commands.md): the hard-stop bit (R240, R241), the two angles (R242, R243),
the five getters (R244 to R246, R249, R250) and the two clears (R247, R248). -/

namespace Sys2Proof.Machine

/-! ### Answers and refusals (R93, R95, R260) -/

/-- A register is answered zero-extended to the 16 bits of the data word. -/
theorem respond_setWidth {w : Nat} (r : BitVec w) (s : State) :
    s.respond (r.setWidth 16) = Claims.answered s .ok r.toNat :=
  respond_eq_answered (BitVec.ofNat_toNat 16 r).symm s

/-- The operand check of a format whose operands are the numbers below a bound. -/
theorem withOperand_eq_ite {f : Format} {bound : Nat} {x : Word} (hlegal : f.legal x = true ↔ x.toNat < bound)
    (s run : State) :
    withOperand f x s run = .next (if bound ≤ x.toNat then Claims.answered s .badArg 0 else run) := by
  obtain ⟨hl, e⟩ | ⟨hl, e⟩ := withOperand_cases f x s run
  · rw [e, if_neg (Nat.not_le.2 (hlegal.1 hl))]
  · rw [e, if_pos (Nat.not_lt.1 fun hlt => by simp [hlegal.2 hlt] at hl)]; rfl

/-! ### The target that is held (R242, R182) -/

/-- A legal operand fits an angle register, so the difference that `SET_TARGET` compares is the plain one of R182. -/
theorem targetHeld_iff {angle : Word} (hlegal : angle.toNat < 3600) (cfg : Cfg) (mc : MC) :
    mc.targetHeld cfg angle = true ↔
      mc.haveTarget = true ∧ ((angle.toNat : Int) - (mc.targetAngle.toNat : Int)).natAbs ≤ cfg.ON_HYST := by
  rw [MC.targetHeld, adiff, toAngle_toNat _ (by omega), Bool.and_eq_true, decide_eq_true_eq]

/-! ### Flags cleared by a scope (R247, R248) -/

/-- Clearing by a mask, bit by bit. -/
theorem getLsbD_and_not_scope {w b : Nat} (hb : b < w) (flags : BitVec w) (scope : Word) :
    (flags &&& ~~~(scope.setWidth w)).getLsbD b = (flags.getLsbD b && !scope.getLsbD b) := by
  simp [hb]

/-- A command that clears by its operand the flags of one register, given by how the register is read and written: what
R247 and R248 have in common. -/
theorem withOperand_clears {w bound : Nat} {f : Format} {x : Word} (hlegal : f.legal x = decide (x.toNat ≤ bound))
    (s : State) {read : State → BitVec w} {write : BitVec w → State}
    (hread : ∀ flags data, read ((write flags).respond data) = flags) :
    ∃ t, withOperand f x s ((write (read s &&& ~~~(x.setWidth w))).respond
        ((read s &&& ~~~(x.setWidth w)).setWidth 16)) = .next t ∧
      (bound < x.toNat → t = Claims.answered s .badArg 0) ∧
      (x.toNat ≤ bound → t = Claims.answered (write (read t)) .ok (read t).toNat ∧
        ∀ b, b < w → (read t).getLsbD b = ((read s).getLsbD b && !x.getLsbD b)) := by
  by_cases hx : x.toNat ≤ bound
  · refine ⟨_, withOperand_legal (hlegal.trans (decide_eq_true hx)) _ _, fun h => absurd hx (Nat.not_le.2 h), fun _ => ?_⟩
    rw [hread]
    exact ⟨respond_setWidth _ _, fun b hb => getLsbD_and_not_scope hb _ _⟩
  · exact ⟨_, withOperand_illegal (hlegal.trans (decide_eq_false hx)) _ _, fun _ => rfl, fun h => absurd h hx⟩

/-! ### The obligations -/

/-- Settles O11: two commands without an operand, each one write and the answer 0. -/
theorem hardStopRequestBit : Obligations.HardStopRequestBit :=
  ⟨decodesN_of_rowOf rfl, decodesN_of_rowOf rfl, fun _ => ⟨rfl, rfl⟩⟩

/-- Settles O12: past the operand check, the model's test for a held target is the plain difference of R182. -/
theorem setTargetCommitsOrHolds : Obligations.SetTargetCommitsOrHolds := by
  refine ⟨decodesBelow_of_rowOf (f := .a) rfl (by simp), fun s x => ?_⟩
  refine (withOperand_eq_ite (bound := 3600) (by simp) s _).trans (congrArg _ ?_)
  split
  next => rfl
  next hlegal => exact if_congr (targetHeld_iff (Nat.not_le.1 hlegal) _ _) rfl rfl

/-- Settles O13: past the operand check, one write and the answer 0. -/
theorem setCurposWritesCurrentAngle : Obligations.SetCurposWritesCurrentAngle :=
  ⟨decodesBelow_of_rowOf (f := .a) rfl (by simp), fun s _ => withOperand_eq_ite (bound := 3600) (by simp) s _⟩

/-- Settles O14: each getter answers its register zero-extended; the motor state is answered by its code of R27. -/
theorem motorGettersAnswer : Obligations.MotorGettersAnswer := by
  refine ⟨⟨decodesN_of_rowOf rfl, decodesN_of_rowOf rfl, decodesN_of_rowOf rfl, decodesN_of_rowOf rfl,
    decodesN_of_rowOf rfl⟩, fun s => ?_⟩
  have hstate : exec .getState s = .next (Claims.answered s .ok (Claims.motorStateNumber s.mc.mstate)) :=
    congrArg _ (respond_eq_answered (by cases s.mc.mstate <;> rfl) s)
  refine ⟨hstate, ?_, ?_, ?_, ?_, fun hinit => ?_, rfl⟩
  · exact congrArg _ (respond_setWidth s.mc.stallFlags s)
  · exact congrArg _ (respond_setWidth s.mc.faultFlags s)
  · exact congrArg _ (respond_setWidth s.mc.targetAngle s)
  · exact congrArg _ (respond_setWidth s.mc.currentAngle s)
  · rw [hstate, hinit, Claims.motorStateNumber]

/-- Settles O15: both clears are one clear by scope, on the register and the mask of each. -/
theorem clearsSelectedFlags : Obligations.ClearsSelectedFlags := by
  refine ⟨⟨decodesBelow_of_rowOf (f := .m2) rfl fun x => ?_, decodesBelow_of_rowOf (f := .m3) rfl fun x => ?_⟩,
    fun s x => ?_, fun s x => ?_⟩
  · rw [legal_m2, decide_eq_true_eq, Nat.lt_succ_iff]
  · rw [legal_m3, decide_eq_true_eq, Nat.lt_succ_iff]
  · exact withOperand_clears (legal_m2 x) s (read := (·.mc.stallFlags))
      (write := fun flags => { s with mc := { s.mc with stallFlags := flags } }) fun _ _ => rfl
  · exact withOperand_clears (legal_m3 x) s (read := (·.mc.faultFlags))
      (write := fun flags => { s with mc := { s.mc with faultFlags := flags } }) fun _ _ => rfl

end Sys2Proof.Machine
end

section
/-! Exceptions (60_exceptions.md): which of the two refusals a command word meets (R261), and the stall flag that
outlives Fault (R265). -/

namespace Sys2Proof

/-! ### The formats of the assigned opcodes (R96) -/

/-- The lists of R96 under the format that each stands for. -/
def opcodesOf : Format → List (BitVec 8)
  | .n => Claims.opcodesN
  | .a => Claims.opcodesA
  | .m2 => Claims.opcodesM2
  | .m3 => Claims.opcodesM3

theorem format_rowOf_of_mem (f : Format) : ∀ op ∈ opcodesOf f, (rowOf op).map (·.format) = some f := by
  cases f <;> decide

theorem opcode_mem_opcodesOf : ∀ r ∈ commandTable, r.opcode ∈ opcodesOf r.format := by decide

/-- The lists of R96 and the decoder's table, written apart from each other, give an opcode the same one format. -/
theorem mem_opcodesOf_iff {op : BitVec 8} {f : Format} :
    op ∈ opcodesOf f ↔ ∃ r, rowOf op = some r ∧ r.format = f := by
  refine ⟨fun h => Option.map_eq_some_iff.1 (format_rowOf_of_mem f op h), ?_⟩
  rintro ⟨r, hrow, rfl⟩
  obtain ⟨hmem, rfl⟩ := rowOf_eq_some hrow
  exact opcode_mem_opcodesOf r hmem

theorem rowOf_eq_none_iff {op : BitVec 8} : rowOf op = none ↔ ∀ f, op ∉ opcodesOf f := by
  simp only [mem_opcodesOf_iff, Option.eq_none_iff_forall_ne_some]
  exact ⟨fun h _ ⟨r, hrow, _⟩ => h r hrow, fun h r hrow => h r.format ⟨r, hrow, rfl⟩⟩

theorem forall_format_iff {p : Format → Prop} : (∀ f, p f) ↔ p .n ∧ p .a ∧ p .m2 ∧ p .m3 := by
  refine ⟨fun h => ⟨h .n, h .a, h .m2, h .m3⟩, fun ⟨hn, ha, hm2, hm3⟩ f => ?_⟩
  cases f with
  | n => exact hn
  | a => exact ha
  | m2 => exact hm2
  | m3 => exact hm3

theorem exists_format_iff {p : Format → Prop} : (∃ f, p f) ↔ p .n ∨ p .a ∨ p .m2 ∨ p .m3 := by
  simpa only [not_exists, not_forall, not_not, not_and_or] using not_congr (forall_format_iff (p := fun f => ¬ p f))

/-! ### The two refusals of a command word (R95, R261) -/

/-- The operand has no part in `BADOP`. -/
theorem decodeCommand_eq_badOp_iff {op : BitVec 8} {x : Word} :
    decodeCommand (commandWord op x) = .error .badOp ↔ ∀ f, op ∉ opcodesOf f := by
  rw [← rowOf_eq_none_iff, commandWord, decodeCommand_append]
  cases rowOf op with
  | none => simp
  | some r => cases hlegal : r.format.legal x <;> simp [hlegal]

/-- `BADARG` needs an assigned opcode, whose format refuses the operand. -/
theorem decodeCommand_eq_badArg_iff {op : BitVec 8} {x : Word} :
    decodeCommand (commandWord op x) = .error .badArg ↔ ∃ f, op ∈ opcodesOf f ∧ f.legal x = false := by
  simp only [mem_opcodesOf_iff]
  rw [commandWord, decodeCommand_append]
  cases rowOf op with
  | none => simp
  | some r => cases hlegal : r.format.legal x <;> simp [hlegal]

namespace Machine

/-! ### A tick that changes no flag (R193 to R198) -/

/-- With the output off and no short pending, no detector counts a tick towards a flag. -/
theorem evMtick_flags_idle {s t : State} (h : exec .evMtick s = .next t) (hm : s.mc.mstate ≠ .init)
    (hout : s.mc.outEn = false) (hvds : s.hwpend.getLsbD 4 = false) :
    t.mc.stallFlags = s.mc.stallFlags ∧ t.mc.faultFlags = s.mc.faultFlags := by
  obtain ⟨hstall, hfault⟩ := evMtick_flags h hm
  have hoff : s.measured.outEn = false := by rw [measure_outEn, hout, Bool.false_and]
  exact ⟨hstall.trans (measure_stallFlags_idle _ _ _ _ _ _ hoff),
    hfault.trans (measure_faultFlags_idle _ _ _ _ _ _ hoff hvds)⟩

/-- An output that is off is raised on entry to Accelerating only (R186). -/
theorem evMtick_outEn_idle {s t : State} (h : exec .evMtick s = .next t) (hm : s.mc.mstate ≠ .init)
    (hout : s.mc.outEn = false) (hacc : t.mc.mstate ≠ .accelerating) : t.mc.outEn = false := by
  obtain ⟨hmc, -⟩ := evMtick_next h
  rw [hmc] at hacc ⊢
  rw [tick_outEn _ _ _ _ _ _ hm, hout, Bool.false_and]
  split
  next => rfl
  next =>
    split
    next hentered => exact absurd hentered hacc
    all_goals rfl

/-! ### The obligations -/

/-- Settles O3: an opcode is in the list of the format that the decoder's table gives it, and in no list when the table
has no row for it. -/
theorem badOpBeforeBadArg : Obligations.BadOpBeforeBadArg := by
  refine ⟨by decide, rfl, fun op x => ⟨?_, ?_⟩⟩
  · refine decodeCommand_eq_badOp_iff.trans (forall_format_iff.trans ?_)
    simp only [opcodesOf, List.mem_append, not_or, and_assoc]
  · refine decodeCommand_eq_badArg_iff.trans (exists_format_iff.trans ?_)
    simp only [opcodesOf, Format.legal, beq_eq_false_iff_ne, decide_eq_false_iff_not, not_lt, not_le, ne_eq]

/-- Settles O53: neither tick changes a flag, so the first finds no fault flag in Fault and the second a stall flag in
Stopped. -/
theorem stallSurvivesFault : Obligations.StallSurvivesFault := by
  intro s hs hfault hstall hout hvds
  have hm : s.mc.mstate ≠ .init := by simp [hs]
  obtain ⟨t, ht, -⟩ := exec_next .evMtick s
  obtain ⟨hstall_t, hfault_t⟩ := evMtick_flags_idle ht hm hout hvds
  have hstopped : t.mc.mstate = .stopped := by
    have hnext := evMtick_nextMotorState ht
    simp only [Claims.NextMotorState, hs] at hnext
    rw [hnext, if_neg (not_not.2 (hfault_t.trans hfault))]
  have hout_t : t.mc.outEn = false := evMtick_outEn_idle ht hm hout (by simp [hstopped])
  have hvds_t : t.hwpend.getLsbD 4 = false := by
    obtain ⟨-, hframe⟩ := evMtick_next ht
    rw [hframe]
    exact hvds
  have hm_t : t.mc.mstate ≠ .init := by simp [hstopped]
  obtain ⟨u, hu, -⟩ := exec_next .evMtick t
  obtain ⟨hstall_u, hfault_u⟩ := evMtick_flags_idle hu hm_t hout_t hvds_t
  have hstalled : u.mc.mstate = .stalled := by
    have hnext := evMtick_nextMotorState hu
    simp only [Claims.NextMotorState, hstopped] at hnext
    rw [hnext, if_neg (not_not.2 (hfault_u.trans (hfault_t.trans hfault))), if_pos (by rwa [hstall_u, hstall_t])]
  exact ⟨t, u, ht, hstopped, hout_t, hu, hstalled, evMtick_outEn_idle hu hm_t hout_t (by simp [hstalled])⟩

end Machine

end Sys2Proof
end

section
/-! Reset and hazards (70_reset_and_hazards.md): the reset event (R290) with the drive ports (R211), a short flag cleared too
early (R304), and the move that restarts after a clear (R311). -/

namespace Sys2Proof.Machine

/-! ### The reset event (R290) -/

theorem exec_evRst (s : State) : exec .evRst s = .next { State.reset with cfg := s.cfg, inq := s.inq } := rfl

/-- Every register has the value 0 after reset, whatever the configuration and the stimulus. -/
theorem x_reset (cfg : Cfg) (inq : List Inputs) (i : Nat) : State.x { State.reset with cfg := cfg, inq := inq } i = 0 := by
  unfold State.x
  split <;> rfl

/-! ### The motor tick: the short detector, the request and the travel -/

section Tick
variable {s t : State}

/-- With the class enabled and the latch pending, a tick that counts up to the trip sets the short flag (R197). -/
theorem evMtick_shortFlag (h : exec .evMtick s = .next t) (hm : s.mc.mstate ≠ .init)
    (hen : s.cfg.FAULT_EN.getLsbD 1 = true) (hvds : s.hwpend.getLsbD 4 = true)
    (htrip : s.cfg.SHORT_TRIP ≤ min (s.mc.shortCnt.toNat + 1) 65535) : t.mc.faultFlags.getLsbD 1 = true := by
  obtain ⟨-, -, -, hflags⟩ := measure_fault s.cfg (Claims.average s.mem .vs) (Claims.filteredCurrent s.mem)
    (Claims.instantCurrent s.mem s.sf.widx) s.hwpend s.mc
  obtain ⟨-, hbit, -⟩ := getLsbD_faultFlags s.mc.faultFlags _ _ _
  rw [(evMtick_flags h hm).2, hflags, hbit, hen, hvds, detect_enabled, updown_toNat, if_pos rfl, decide_eq_true htrip]
  exact Bool.or_true _

/-- The motor tick leaves the latch, the hard-stop bit and both angles as they were (R44). -/
theorem evMtick_keeps (h : exec .evMtick s = .next t) :
    t.hwpend = s.hwpend ∧ t.mc.hardStop = s.mc.hardStop ∧ Claims.distance t = Claims.distance s := by
  obtain ⟨hmc, hframe⟩ := evMtick_next h
  rw [tick_frame] at hmc
  refine ⟨by rw [hframe], by rw [hmc], ?_⟩
  rw [Claims.distance, Claims.travel, hmc]
  rfl

/-- The request outlives a tick that finds the target out of `OFF_HYST` (R184). -/
theorem evMtick_moveReq_of_away (h : exec .evMtick s = .next t) (hm : s.mc.mstate ≠ .init)
    (haway : s.cfg.OFF_HYST < Claims.distance s) : t.mc.moveReq = s.mc.moveReq := by
  rw [(evMtick_next h).1, tick_moveReq _ _ _ _ _ _ hm, Bool.eq_iff_iff, measured_moveReq_iff, and_iff_left haway]

end Tick

/-! ### A move that nothing holds back (R311) -/

/-- The output is off, a target out of `OFF_HYST` is requested, and neither a flag nor the owner's hard stop nor a pending
short stands against the move. -/
structure MovePending (s : State) : Prop where
  noStall : s.mc.stallFlags = 0
  noFault : s.mc.faultFlags = 0
  outputOff : s.mc.outEn = false
  noShort : s.hwpend.getLsbD 4 = false
  requested : s.mc.moveReq = true
  released : s.mc.hardStop = false
  away : s.cfg.OFF_HYST < Claims.distance s

namespace MovePending
variable {s t : State}

theorem flags_after_tick (hp : MovePending s) (h : exec .evMtick s = .next t) (hm : s.mc.mstate ≠ .init) :
    t.mc.stallFlags = 0 ∧ t.mc.faultFlags = 0 := by
  obtain ⟨hstall, hfault⟩ := evMtick_flags_idle h hm hp.outputOff hp.noShort
  exact ⟨hstall.trans hp.noStall, hfault.trans hp.noFault⟩

/-- The first tick returns from Stalled to Stopped, and the move is still pending (R208). -/
theorem tick_from_stalled (hp : MovePending s) (h : exec .evMtick s = .next t) (hs : s.mc.mstate = .stalled) :
    t.mc.mstate = .stopped ∧ MovePending t := by
  have hm : s.mc.mstate ≠ .init := by simp [hs]
  obtain ⟨hstall, hfault⟩ := hp.flags_after_tick h hm
  have hstopped : t.mc.mstate = .stopped := by
    simpa [Claims.NextMotorState, hs, hstall, hfault] using evMtick_nextMotorState h
  obtain ⟨hhw, hhard, hdist⟩ := evMtick_keeps h
  exact ⟨hstopped,
    { noStall := hstall
      noFault := hfault
      outputOff := evMtick_outEn_idle h hm hp.outputOff (by simp [hstopped])
      noShort := by rw [hhw, hp.noShort]
      requested := (evMtick_moveReq_of_away h hm hp.away).trans hp.requested
      released := hhard.trans hp.released
      away := by rw [(exec_next_keeps h).1, hdist]; exact hp.away }⟩

/-- A tick in Stopped starts it (R202), and the entry to Accelerating enables the output (R186). -/
theorem tick_from_stopped (hp : MovePending s) (h : exec .evMtick s = .next t) (hs : s.mc.mstate = .stopped) :
    t.mc.mstate = .accelerating ∧ t.mc.outEn = true := by
  obtain ⟨hstall, hfault⟩ := hp.flags_after_tick h (by simp [hs])
  have hacc : t.mc.mstate = .accelerating := by
    simpa [Claims.NextMotorState, hs, hstall, hfault, hp.requested, hp.away, hp.released] using evMtick_nextMotorState h
  obtain ⟨-, -, -, -, -, -, hentry, -⟩ := entryActions .evMtick s t (by simp) h (by simp [hs, hacc])
  obtain ⟨-, -, hout, -⟩ := hentry hacc
  exact ⟨hacc, hout⟩

end MovePending

/-! ### The obligations -/

/-- Settles O54: the clear leaves the latch and the short counter, so the next tick trips again, and a fault flag holds
Fault. -/
theorem earlyShortClearUndone : Obligations.EarlyShortClearUndone := by
  intro s hs hen hvds htrip
  obtain ⟨-, -, hclears⟩ := clearsSelectedFlags
  obtain ⟨t, ht, -, hlegal⟩ := hclears s 2
  obtain ⟨hframe, hbits⟩ := hlegal (by decide)
  have hs_t : t.mc.mstate = .fault := by rw [hframe]; exact hs
  obtain ⟨u, hu, -⟩ := exec_next .evMtick t
  have hflag : u.mc.faultFlags.getLsbD 1 = true :=
    evMtick_shortFlag hu (by simp [hs_t]) (by rw [hframe]; exact hen) (by rw [hframe]; exact hvds)
      (by rw [hframe]; exact htrip)
  have hfault : u.mc.faultFlags ≠ 0 := fun h0 => by simp [h0] at hflag
  have hstays : u.mc.mstate = .fault := by
    have hnext := evMtick_nextMotorState hu
    simp only [Claims.NextMotorState, hs_t] at hnext
    rw [hnext, if_pos hfault]
  refine ⟨t, u, ht, ?_, hu, hflag, hstays⟩
  rw [hbits 1 (by decide)]
  exact Bool.and_false _

/-- Settles O55: with both stall flags cleared the move is pending, one tick from Stopped and two from Accelerating. -/
theorem moveRestartsAfterClear : Obligations.MoveRestartsAfterClear := by
  intro s hs hfault hout hvds hreq hhard haway
  obtain ⟨-, hclears, -⟩ := clearsSelectedFlags
  obtain ⟨t, ht, -, hlegal⟩ := hclears s 3
  obtain ⟨hframe, hbits⟩ := hlegal (by decide)
  have hstall : t.mc.stallFlags = 0 := by
    refine BitVec.eq_of_getLsbD_eq fun b hb => ?_
    obtain rfl | rfl : b = 0 ∨ b = 1 := by omega
    all_goals exact (hbits _ hb).trans (Bool.and_false _)
  have hpending : MovePending t :=
    { noStall := hstall
      noFault := by rw [hframe]; exact hfault
      outputOff := by rw [hframe]; exact hout
      noShort := by rw [hframe]; exact hvds
      requested := by rw [hframe]; exact hreq
      released := by rw [hframe]; exact hhard
      away := by rw [hframe]; exact haway }
  have hs_t : t.mc.mstate = .stalled := by rw [hframe]; exact hs
  obtain ⟨u, hu, -⟩ := exec_next .evMtick t
  obtain ⟨hstopped, hpending_u⟩ := hpending.tick_from_stalled hu hs_t
  obtain ⟨v, hv, -⟩ := exec_next .evMtick u
  exact ⟨t, u, v, ht, hu, hstopped, hv, hpending_u.tick_from_stopped hv hstopped⟩

/-- Settles O24: the state after the event is the reset state under the configuration and the stimulus that were there. -/
theorem resetClearsEverything : Obligations.ResetClearsEverything := by
  refine ⟨decode_event (e := .rst) (by decide) rfl, fun s => ⟨_, exec_evRst s, ?_⟩, ?_, readByte_nil, fun s => ?_⟩
  · refine ⟨fun i _ => x_reset s.cfg s.inq i, fun c i => readWord_nil (wordAddr c i), readByte_nil, rfl, rfl, rfl, rfl, rfl,
      rfl, outDir_fwd _ rfl, rfl⟩
  · exact fun i _ => x_reset refCfg [] i
  · exact ⟨outEn_eq s, outDuty_eq s, outDir_fwd s, outDir_rev s⟩

end Sys2Proof.Machine
end
